-- ==== Sys2Proof/Word.lean ====
section
/-! DEFINITION. The two word types of the block: a 32-bit command word (30_encoding.md R58, R59) and a byte
(00_scope.md R17). Sizes, addresses and counts are plain `Nat` (R17: exact, never wrapping). -/

namespace Sys2Proof

/-- A command word `w`, 32 bits, bit 0 the least significant (30_encoding.md R58, 00_scope.md R16). -/
abbrev Word := BitVec 32

/-- An unsigned 8-bit value (00_scope.md R17). -/
abbrev Byte := BitVec 8

end Sys2Proof
end

