-- ==== Sys2Proof/Syntax.lean ====
section
/-! DEFINITION. The seven commands (30_encoding.md R61), one constructor per row of spec/opcode_table.json. -/

namespace Sys2Proof

/-- A decoded command with its operand (30_encoding.md R61, R63). -/
inductive Instr where
  /-- INIT: `initialize()` (43_controller.md R93). -/
  | init
  /-- MAXRATE: `maxRefreshRate()` (43_controller.md R94). -/
  | maxrate
  /-- ENCODE with its byte operand `B` (40_encoder.md R70). -/
  | encode (b : Byte)
  /-- ENSURE with its byte count `REQ` (41_framebuffer.md R81). -/
  | ensure (req : Nat)
  /-- DRIVE: `drive(pixelSource)` (43_controller.md R96). -/
  | drive
  /-- SEND with its byte length `LEN` (42_transmit.md R84). -/
  | send (len : Nat)
  /-- TEARDOWN: destruction of the instance (43_controller.md R105). -/
  | teardown
  deriving DecidableEq, Repr

end Sys2Proof
end

