-- ==== Sys2Proof/WellFormed.lean ====
section
/-! DEFINITION. Which commands a word can carry: the operand ranges of 30_encoding.md R60 and R67. -/

namespace Sys2Proof

/-- The largest operand a command word can carry, 2^24 - 1 (30_encoding.md R60). -/
def maxOperand : Nat := 16777215

/-- Each Nat operand is at most `maxOperand` (R60, R67); a byte operand is always in range. -/
def Instr.wf : Instr → Bool
  | .init => true
  | .maxrate => true
  | .encode _ => true
  | .ensure req => decide (req ≤ maxOperand)
  | .drive => true
  | .send len => decide (len ≤ maxOperand)
  | .teardown => true

end Sys2Proof
end

