-- ==== Sys2Proof/Decode.lean ====
section
/-! DEFINITION. Decoding a command word, total on every 32-bit word (30_encoding.md R59 to R65); the encoder written
from the same table (R61, R62, R67); and the assembler's text form (R67). -/

namespace Sys2Proof

/-- Why a word is illegal (30_encoding.md R64). -/
inductive IllegalWord where
  /-- `RSV = w[7:4]` is not 0. -/
  | reservedBits
  /-- A must-be-zero operand bit is set. -/
  | operandBits
  /-- `OP` is 0x0 or 0x8 to 0xF. -/
  | opcode
  deriving DecidableEq, Repr

/-- What a word decodes to: `Cmd | ILLEGAL` (30_encoding.md R63). -/
inductive Decoded where
  | command (i : Instr)
  | illegal (why : IllegalWord)
  deriving DecidableEq, Repr

/-- `OP = w[3:0]` (30_encoding.md R59). -/
def opField (w : Word) : BitVec 4 := w.extractLsb' 0 4

/-- `RSV = w[7:4]` (30_encoding.md R59). -/
def rsvField (w : Word) : BitVec 4 := w.extractLsb' 4 4

/-- `OPND = w[31:8]` (30_encoding.md R59). -/
def opndField (w : Word) : BitVec 24 := w.extractLsb' 8 24

/-- `B = w[15:8]`, the byte operand of ENCODE (30_encoding.md R60). -/
def byteField (w : Word) : Byte := w.extractLsb' 8 8

/-- `w[31:16]`, which ENCODE requires to be 0 (30_encoding.md R62). -/
def encodeMbzField (w : Word) : BitVec 16 := w.extractLsb' 16 16

/-- A command that takes no operand: `OPND` must be 0 (30_encoding.md R60, R62). -/
def decodeBare (w : Word) (i : Instr) : Decoded :=
  if opndField w = 0 then .command i else .illegal .operandBits

/-- The decode function of 30_encoding.md R63. -/
def decode (w : Word) : Decoded :=
  if rsvField w ≠ 0 then .illegal .reservedBits
  else match (opField w).toNat with
    | 1 => decodeBare w .init
    | 2 => decodeBare w .maxrate
    | 3 => if encodeMbzField w = 0 then .command (.encode (byteField w)) else .illegal .operandBits
    | 4 => .command (.ensure (opndField w).toNat)
    | 5 => decodeBare w .drive
    | 6 => .command (.send (opndField w).toNat)
    | 7 => decodeBare w .teardown
    | _ => .illegal .opcode

/-- The number of a command in the opcode map (30_encoding.md R61). -/
def opcode : Instr → BitVec 4
  | .init => 0x1
  | .maxrate => 0x2
  | .encode _ => 0x3
  | .ensure _ => 0x4
  | .drive => 0x5
  | .send _ => 0x6
  | .teardown => 0x7

/-- The operand bits `w[31:8]` of a command (30_encoding.md R60): none are 0, a byte is zero-extended. -/
def operandBits : Instr → BitVec 24
  | .init => 0
  | .maxrate => 0
  | .encode b => b.zeroExtend 24
  | .ensure req => BitVec.ofNat 24 req
  | .drive => 0
  | .send len => BitVec.ofNat 24 len
  | .teardown => 0

/-- The word of a well-formed command: OPND, then RSV = 0, then OP (30_encoding.md R59, R67). -/
def encode (i : Instr) : Word := operandBits i ++ (0 : BitVec 4) ++ opcode i

/-- The command the decoder reads from an opcode-table word of `nbits` bits, every bit above them 0. -/
def decodeTableWord (nbits w : Nat) : Option Instr :=
  match decode (BitVec.ofNat 32 (w % 2 ^ nbits)) with
  | .command i => some i
  | .illegal _ => none

/-! The assembler (30_encoding.md R67; notation: log 16). -/

/-- The value of a hexadecimal digit. -/
def hexDigit (c : Char) : Option Nat :=
  if '0' ≤ c ∧ c ≤ '9' then some (c.toNat - '0'.toNat)
  else if 'a' ≤ c ∧ c ≤ 'f' then some (c.toNat - 'a'.toNat + 10)
  else if 'A' ≤ c ∧ c ≤ 'F' then some (c.toNat - 'A'.toNat + 10)
  else none

/-- Digits of base `base` after the value `acc`, all of the list. -/
def digits (base : Nat) (acc : Nat) : List Char → Option Nat
  | [] => some acc
  | c :: cs =>
    match hexDigit c with
    | some d => if d < base then digits base (acc * base + d) cs else none
    | none => none

/-- A number is decimal or `0x`-prefixed hexadecimal (30_encoding.md R67). -/
def parseNumber : List Char → Option Nat
  | [] => none
  | ['0', 'x'] => none
  | '0' :: 'x' :: cs => digits 16 0 cs
  | cs => digits 10 0 cs

/-- The command of a mnemonic and its operand, out-of-range operands refused (30_encoding.md R67). -/
def assembleParts (mnemonic : List Char) (operand : Option Nat) : Option Instr :=
  match operand with
  | none =>
    if mnemonic = ['I', 'N', 'I', 'T'] then some .init
    else if mnemonic = ['M', 'A', 'X', 'R', 'A', 'T', 'E'] then some .maxrate
    else if mnemonic = ['D', 'R', 'I', 'V', 'E'] then some .drive
    else if mnemonic = ['T', 'E', 'A', 'R', 'D', 'O', 'W', 'N'] then some .teardown
    else none
  | some v =>
    if mnemonic = ['E', 'N', 'C', 'O', 'D', 'E'] then
      if v < 256 then some (.encode (BitVec.ofNat 8 v)) else none
    else if mnemonic = ['E', 'N', 'S', 'U', 'R', 'E'] then
      if v ≤ maxOperand then some (.ensure v) else none
    else if mnemonic = ['S', 'E', 'N', 'D'] then
      if v ≤ maxOperand then some (.send v) else none
    else none

/-- One line of assembler text to its word: a mnemonic, or a mnemonic, a blank and a number; anything else is an
assembly error and produces no word (30_encoding.md R67). -/
def assemble (line : List Char) : Option Word :=
  let mnemonic := line.takeWhile (· ≠ ' ')
  match line.dropWhile (· ≠ ' ') with
  | [] => (assembleParts mnemonic none).map encode
  | _ :: text =>
    match parseNumber text with
    | some v => (assembleParts mnemonic (some v)).map encode
    | none => none

end Sys2Proof
end

