-- ==== Sys2Proof/Config.lean ====
section
/-! DEFINITION. What an instantiation of the block fixes (00_scope.md section 2, R5 to R15), and the free values: the
answers of the external agents that no script gives (R21), and what an `Undef` sequencer register reads as (10_state.md
R33). A free value is an opaque constant without a body, so no proof can know it. -/

namespace Sys2Proof

/-- The order in which the bus sends the bits of a byte (00_scope.md R11). The block only ever uses MSB_FIRST. -/
inductive BitOrder where
  | msbFirst
  deriving DecidableEq, Repr

/-- The configuration record of a bus transaction (42_transmit.md R83). -/
structure BusCfg where
  clock    : Nat
  bitOrder : BitOrder
  mode     : Fin 4
  deriving DecidableEq, Repr

/-- The implementation parameters (00_scope.md section 2). They are fixed at instantiation; no step writes them.
DESIGN CHOICE, log 1: they travel in a field of State, because the fixed interface of `exec` has no other place. -/
structure Config where
  /-- ONE_PATTERN (R5), the symbol byte of an input bit 1. -/
  onePattern  : Byte
  /-- ZERO_PATTERN (R6), the symbol byte of an input bit 0. -/
  zeroPattern : Byte
  /-- RESET_LEN (R8), the length in bytes of the reset tail; 0 is allowed. -/
  resetLen    : Nat
  /-- BUF_CAPACITY (R9), the largest frame buffer in bytes. -/
  bufCapacity : Nat
  /-- BUS_CLOCK_HZ (R10). Only BUS_CFG and the timing notes mention it. -/
  busClockHz  : Nat
  /-- FLIP (R13); only `false` is admitted (R7). -/
  flip        : Bool
  /-- POST_TX_WAIT (R14): no state or rule reads it. -/
  postTxWait  : Nat
  /-- DATA_PIN (R14): no state or rule reads it. -/
  dataPin     : Nat
  /-- COLOR_ORDER (R14): belongs to the PixelSource; no state or rule of the block reads it. -/
  colorOrder  : Nat
  deriving DecidableEq, Repr

namespace Config

/-- A configuration is admitted only with distinct patterns and `FLIP = false` (00_scope.md R7). -/
def admitted (c : Config) : Bool := c.onePattern != c.zeroPattern && !c.flip

/-- The reference configuration (00_scope.md R5, R6, R8, R9, R10, R13), the spec's own choice of values.
DESIGN CHOICE, log 1, for the three values R14 leaves without a type or a value (log 15). -/
def reference : Config :=
  { onePattern := 0xFC, zeroPattern := 0xC0, resetLen := 10, bufCapacity := 16777215, busClockHz := 6400000,
    flip := false, postTxWait := 0, dataPin := 0, colorOrder := 0 }

/-- MAX_REFRESH_RATE, under every configuration (00_scope.md R12). -/
def maxRefreshRate : Nat := 400

/-- CHANNELS (00_scope.md R15). -/
def channels : Nat := 3

/-- SYMBOLS_PER_BYTE (00_scope.md R15). -/
def symbolsPerByte : Nat := 8

/-- SYMBOLS_PER_PIXEL (00_scope.md R15). -/
def symbolsPerPixel : Nat := 24

/-! The free values (00_scope.md R21). Each is applied to the counter `env.drawn`, so that every draw is a fresh one.
DESIGN CHOICE, log 3: they answer where the script of the agent in State has run out. -/

/-- The Bus's answer to `open()`. -/
opaque openAnswer : Nat → Bool
/-- The Bus's answer to `beginTransaction(BUS_CFG)`. -/
opaque beginAnswer : Nat → Bool
/-- What the Bus does in one step of a pending write: nothing, or complete it with (emitted length, ok) (R88). -/
opaque writeAnswer : Nat → Option (Nat × Bool)
/-- The Allocator's answer (41_framebuffer.md R78). -/
opaque allocAnswer : Nat → Bool
/-- The PixelSource's answer to `size()`. -/
opaque sizeAnswer : Nat → Nat
/-- The PixelSource's answer to `hasNext(1)`. -/
opaque hasNextAnswer : Nat → Bool
/-- The PixelSource's answer to a `nextScaledC()`. -/
opaque scaledAnswer : Nat → Byte

/-- The four sequencer registers that hold a Nat (10_state.md R33). -/
inductive SeqReg where
  | n | req | i | sendLen
  deriving DecidableEq, Repr

/-- What a read of an `Undef` sequencer register would give; no run makes such a read (10_state.md R33, log 6). -/
opaque undefReg : SeqReg → Nat
/-- What a read of an `Undef` `wr_ok` would give; no run makes such a read (10_state.md R33, log 6). -/
opaque undefWrOk : Bool

end Config

end Sys2Proof
end

