-- ==== Sys2Proof/Machine/State.lean ====
section
/-! DEFINITION. The state of the machine as plain data: the block's own state (10_state.md R22), the configuration it
was instantiated with (00_scope.md section 2), and what the external agents will do (00_scope.md R21). -/

namespace Sys2Proof.Machine

/-- The lifecycle state (10_state.md R24). -/
inductive CtrlState where
  | uninit
  | ready
  | transmitting
  | tornDown
  deriving DecidableEq, Repr

/-- The sequencer's position (10_state.md R32). -/
inductive Phase where
  | idle
  | dSize
  | dAlloc
  | dPixel
  | dCheck
  | sBegin
  | sWrite
  | sEnd
  deriving DecidableEq, Repr

/-- The architected results (60_exceptions.md R108); their bytes are `ResultCode.code`. -/
inductive ResultCode where
  | ok
  | allocationFailure
  | busUnavailable
  | streamLengthMismatch
  deriving DecidableEq, Repr

/-- The sticky faults of the block (60_exceptions.md R109); their bytes are `FaultCode.code`. -/
inductive FaultCode where
  | illegalCommand
  | notInitialized
  | alreadyInitialized
  | overlap
  | bufferOverrun
  | undefinedRead
  | afterTeardown
  deriving DecidableEq, Repr

/-- The response record (30_encoding.md R66). -/
structure Response where
  code    : ResultCode
  value   : Option Nat
  symbols : Option (List Byte)
  deriving DecidableEq, Repr

/-- The kinds of entry of the event history (10_state.md R39). -/
inductive Event where
  | cmd (w : Word)
  | resp (r : Response)
  | fault (c : FaultCode)
  | srcSize (n : Nat)
  | srcHasNext (b : Bool)
  | srcByte (c : Fin 3) (v : Byte)
  | srcAdvance
  | srcDither
  | busOpen (ok : Bool)
  | busBegin (cfg : BusCfg) (ok : Bool)
  | busWrite (bytes : List Byte) (emitted : Nat) (ok : Bool)
  | busEnd
  | alloc (oldSize newSize : Nat)
  | allocFail (oldSize newSize : Nat)
  | release (oldSize : Nat)
  deriving DecidableEq, Repr

/-- The cells that hold a byte, addresses strictly rising; an address that is not listed is `Undef`
(00_scope.md R18, 10_state.md R27; log 8). -/
abbrev Memory := List Host.Cell

/-- The agents outside the block: what each will do, oldest first (00_scope.md R4, R21). MODEL'S OWN fields
(DESIGN CHOICE, log 2, 3, 4, 13); a script that has run out is followed by free values. -/
structure Env where
  /-- What the Host does at each coming step: gives a word, or is silent (log 2). -/
  host   : List (Option Word)
  /-- The Bus's answers to `open()`. -/
  opens  : List Bool
  /-- The Bus's answers to `beginTransaction`. -/
  begins : List Bool
  /-- What the Bus does in each coming step of a pending write: nothing, or completes it (42_transmit.md R88). -/
  writes : List (Option (Nat × Bool))
  /-- The Allocator's answers. -/
  allocs : List Bool
  /-- The PixelSource's answers to `size()`. -/
  sizes  : List Nat
  /-- The PixelSource's answers to `hasNext(1)`. -/
  nexts  : List Bool
  /-- The PixelSource's scaled bytes, in the order the block asks for them. -/
  scaled : List Byte
  /-- How many draws have been made; it indexes the free values. -/
  drawn  : Nat
  /-- The Bus's pending `writeBytes` request: the snapshot it is sending (42_transmit.md R85, 10_state.md R38). -/
  busReq : Option (List Byte)
  deriving DecidableEq, Repr

/-- The state: the block's record of 10_state.md R22, the configuration, the agents. An `Option` sequencer register
that is `none` is the spec's own `Undef` (R33). -/
structure State where
  /-- The parameters of the instantiation; no step writes them (log 1). -/
  cfg        : Config
  /-- The lifecycle state (R24). -/
  ctrlState  : CtrlState
  /-- The block holds the bus peripheral handle (R25). -/
  busHeld    : Bool
  /-- The size of the frame buffer the block owns; 0: it owns none (R26). -/
  bufSize    : Nat
  /-- The frame buffer's cells (R27). -/
  buf        : Memory
  /-- The result of the last command that ended with one (R28). -/
  status     : ResultCode
  /-- The sticky fault (R29). -/
  fault      : Option FaultCode
  /-- The response of the last command that ended with a result (R30). -/
  resp       : Option Response
  /-- The command in progress (R31). -/
  cmd        : Option Instr
  /-- The sequencer's position (R32). -/
  phase      : Phase
  /-- The pixel count, latched from `size()` (R33). -/
  n          : Option Nat
  /-- The required buffer size (R33). -/
  req        : Option Nat
  /-- The number of pixels encoded so far in this cycle (R33). -/
  i          : Option Nat
  /-- The length of the current bus write (R33). -/
  sendLen    : Option Nat
  /-- Whether `beginTransaction` answered ok (R33). -/
  begun      : Option Bool
  /-- The write's result (R33). -/
  wrOk       : Option Bool
  /-- Successful reallocations since reset (R34). -/
  allocCount : Nat
  /-- The configuration is not admitted (R37). -/
  refused    : Bool
  /-- The event history, oldest first (R39). -/
  events     : List Event
  /-- The external agents (not block state). -/
  env        : Env
  deriving DecidableEq, Repr

/-- Why the machine has no further step. -/
inductive Fault where
  /-- The block has recorded a sticky fault: neither it nor the Bus has any step (60_exceptions.md R110). Raised by
  every step and every command once `fault` is set. Safe: it is the spec's own stop (log 9). -/
  | quiescent (code : FaultCode)
  /-- A pixel write would leave the encoded region, against the requirement of 40_encoder.md R72. Raised by phase
  D_PIXEL, in no reachable state (43_controller.md R99). Safe (log 12). -/
  | pixelOutsideBuffer
  deriving DecidableEq, Repr

/-- Why the model gives no meaning. -/
inductive Refusal where
  /-- An arm of `exec` without a meaning: none is left. Safe. -/
  | notModelled (mnemonic : String)
  /-- CONFIG_FLIP: the instantiation has `FLIP = true` (60_exceptions.md R111). Raised by every step and command of a
  refused instance. Safe: the spec's own refusal (log 10). -/
  | configFlip
  /-- CONFIG_PATTERNS_EQUAL: the instantiation has equal patterns (60_exceptions.md R111). Raised by every step and
  command of a refused instance. Safe: the spec's own refusal (log 10). -/
  | configPatternsEqual
  deriving DecidableEq, Repr

/-- The outcome of a command or a step (00_scope.md R20). A result and a raised fault are next states. -/
abbrev Out := Host.Outcome State Fault Refusal

/-- Agents with nothing scripted: a silent Host, and free values for every answer (DESIGN CHOICE, log 2, 3). -/
def Env.unscripted : Env :=
  { host := [], opens := [], begins := [], writes := [], allocs := [], sizes := [], nexts := [], scaled := [],
    drawn := 0, busReq := none }

/-- Instantiation with a configuration: the reset column of 10_state.md R22 (70_reset_and_hazards.md R124, R125). -/
def State.instantiate (c : Config) : State :=
  { cfg := c, ctrlState := .uninit, busHeld := false, bufSize := 0, buf := [], status := .ok, fault := none,
    resp := none, cmd := none, phase := .idle, n := none, req := none, i := none, sendLen := none, begun := none,
    wrOk := none, allocCount := 0, refused := !c.admitted, events := [], env := Env.unscripted }

/-- The machine right after reset, under the reference configuration (DESIGN CHOICE, log 1). -/
def State.reset : State := State.instantiate Config.reference

end Sys2Proof.Machine
end

