-- ==== Sys2Proof/Machine/Flags.lean ====
section
/-! DEFINITION. The numbers of the result and fault codes (60_exceptions.md R108, R109) and of the lifecycle states
(10_state.md R24). The block has no condition flags; `status` stands in for them (10_state.md R28). -/

namespace Sys2Proof.Machine

/-- The byte written to `status` and `resp.code` (60_exceptions.md R108). -/
def ResultCode.code : ResultCode → Byte
  | .ok => 0x00
  | .allocationFailure => 0x01
  | .busUnavailable => 0x02
  | .streamLengthMismatch => 0x03

/-- The byte written to `fault` (60_exceptions.md R109). -/
def FaultCode.code : FaultCode → Byte
  | .illegalCommand => 0x10
  | .notInitialized => 0x11
  | .alreadyInitialized => 0x12
  | .overlap => 0x13
  | .bufferOverrun => 0x14
  | .undefinedRead => 0x15
  | .afterTeardown => 0x16

/-- The number of a lifecycle state (10_state.md R22, R24). -/
def CtrlState.number : CtrlState → BitVec 2
  | .uninit => 0
  | .ready => 1
  | .transmitting => 2
  | .tornDown => 3

end Sys2Proof.Machine
end

