-- ==== Sys2Proof/Machine/Ops.lean ====
section
/-! DEFINITION. The operations the meanings share: the cells of the frame buffer (00_scope.md R18, R19, 20_memory.md),
the draws (00_scope.md R21), `emit`, `return Result` and `raise Fault` (30_encoding.md R66, 60_exceptions.md R110), and
the common checks of a command (60_exceptions.md R113). -/

namespace Sys2Proof.Machine

/-! ## Cells -/

/-- The cell at an address: `some b` is `Def(b)`, `none` is `Undef` (00_scope.md R18). -/
def Memory.read : Memory → Nat → Option Byte
  | [], _ => none
  | (k, b) :: m, a => if k = a then some b else Memory.read m a

/-- `MemWrite(a, 1, v)`, keeping the addresses rising (00_scope.md R19). -/
def Memory.write : Memory → Nat → Byte → Memory
  | [], a, v => [(a, v)]
  | (k, b) :: m, a, v =>
    if a < k then (a, v) :: (k, b) :: m
    else if a = k then (a, v) :: m
    else (k, b) :: Memory.write m a v

/-- `MemWrite` of a list of bytes at ascending addresses from `a`. -/
def Memory.writeBytes (m : Memory) (a : Nat) : List Byte → Memory
  | [] => m
  | v :: vs => Memory.writeBytes (Memory.write m a v) (a + 1) vs

/-- `[MemRead(a, 1) for a in start .. start+len-1]`; `none` where one of the cells is `Undef` (42_transmit.md R85). -/
def Memory.readBytes (m : Memory) (start : Nat) : Nat → Option (List Byte)
  | 0 => some []
  | len + 1 =>
    match m.read start with
    | none => none
    | some b => (Memory.readBytes m (start + 1) len).map (b :: ·)

/-- A buffer in which exactly the cells `start .. start+len-1` are `Def(0x00)` (41_framebuffer.md R76). -/
def Memory.zeros (start len : Nat) : Memory := (List.range' start len).map fun a => (a, 0)

/-- The canonical form: addresses strictly rising. -/
def Memory.wf : Memory → Bool
  | [] => true
  | [_] => true
  | (k, _) :: (l, c) :: m => decide (k < l) && Memory.wf ((l, c) :: m)

/-! ## Events and agents -/

/-- `emit E` (00_scope.md R19). -/
def emit (e : Event) (s : State) : State := { s with events := s.events ++ [e] }

/-- The state with other agents. -/
def withEnv (e : Env) (s : State) : State := { s with env := e }

/-- A draw: the script's next answer, or the free value where the script has run out (00_scope.md R21). -/
def nextAnswer {α : Type} (script : List α) (free : α) : α :=
  match script with
  | [] => free
  | a :: _ => a

/-- What the Host does in this step: gives a word, or is silent (log 2). -/
def hostMove (s : State) : Option Word := nextAnswer s.env.host none

/-- The Host has made its move. -/
def hostMoved (s : State) : State := withEnv { s.env with host := s.env.host.tail } s

/-- `draw ok : Bool from Bus.open()`. -/
def openAnswer (s : State) : Bool := nextAnswer s.env.opens (Config.openAnswer s.env.drawn)

/-- The Bus has answered `open()`. -/
def openAsked (s : State) : State :=
  withEnv { s.env with opens := s.env.opens.tail, drawn := s.env.drawn + 1 } s

/-- `draw ok : Bool from Bus.beginTransaction(BUS_CFG)`. -/
def beginAnswer (s : State) : Bool := nextAnswer s.env.begins (Config.beginAnswer s.env.drawn)

/-- The Bus has answered `beginTransaction`. -/
def beginAsked (s : State) : State :=
  withEnv { s.env with begins := s.env.begins.tail, drawn := s.env.drawn + 1 } s

/-- What the Bus does in this step of a pending write: nothing, or complete it with (e, ok) (42_transmit.md R88). -/
def writeAnswer (s : State) : Option (Nat × Bool) := nextAnswer s.env.writes (Config.writeAnswer s.env.drawn)

/-- The Bus has made its move in this step of a pending write. -/
def writeAsked (s : State) : State :=
  withEnv { s.env with writes := s.env.writes.tail, drawn := s.env.drawn + 1 } s

/-- `draw ok : Bool from Allocator(req)`. -/
def allocAnswer (s : State) : Bool := nextAnswer s.env.allocs (Config.allocAnswer s.env.drawn)

/-- The Allocator has answered. -/
def allocAsked (s : State) : State :=
  withEnv { s.env with allocs := s.env.allocs.tail, drawn := s.env.drawn + 1 } s

/-- `draw n : Nat from PixelSource.size()`. -/
def sizeAnswer (s : State) : Nat := nextAnswer s.env.sizes (Config.sizeAnswer s.env.drawn)

/-- The PixelSource has answered `size()`. -/
def sizeAsked (s : State) : State :=
  withEnv { s.env with sizes := s.env.sizes.tail, drawn := s.env.drawn + 1 } s

/-- `draw h : Bool from PixelSource.hasNext(1)`. -/
def hasNextAnswer (s : State) : Bool := nextAnswer s.env.nexts (Config.hasNextAnswer s.env.drawn)

/-- The PixelSource has answered `hasNext(1)`. -/
def hasNextAsked (s : State) : State :=
  withEnv { s.env with nexts := s.env.nexts.tail, drawn := s.env.drawn + 1 } s

/-- `draw b : Byte from PixelSource.nextScaledC()`, the answer to the `k`-th such request from here on. -/
def scaledAnswer (k : Nat) (s : State) : Byte :=
  nextAnswer (s.env.scaled.drop k) (Config.scaledAnswer (s.env.drawn + k))

/-- The PixelSource has answered `nextScaled0`, `nextScaled1` and `nextScaled2`. -/
def scaledAsked (s : State) : State :=
  withEnv { s.env with scaled := s.env.scaled.drop 3, drawn := s.env.drawn + 3 } s

/-! ## How a command ends -/

/-- The `code`-`value`-`symbols` record a command returns (30_encoding.md R66). -/
def finish (code : ResultCode) (value : Option Nat) (symbols : Option (List Byte)) (s : State) : State :=
  emit (.resp { code := code, value := value, symbols := symbols })
    { s with
      status := code
      resp := some { code := code, value := value, symbols := symbols }
      cmd := none
      phase := .idle
      ctrlState := if s.ctrlState = .transmitting then .ready else s.ctrlState }

/-- `raise Fault(code)`: records the code and the event and writes no other state (60_exceptions.md R110). -/
def raise (code : FaultCode) (s : State) : State := emit (.fault code) { s with fault := some code }

/-- The block accepts a command (10_state.md R31). -/
def accept (i : Instr) (s : State) : State := { s with cmd := some i }

/-! ## The checks every command and every step shares -/

/-- The refusal of a configuration that is not admitted (60_exceptions.md R111; which one where both hold: log 10). -/
def refusalOf (c : Config) : Refusal := if c.flip then .configFlip else .configPatternsEqual

/-- Checks (1) and (2) of 60_exceptions.md R113: a refused or a faulted instance has no step at all. -/
def halted (s : State) : Option Out :=
  if s.refused then some (.refused (refusalOf s.cfg))
  else match s.fault with
    | some code => some (.fault (.quiescent code))
    | none => none

/-- The common checks (1), (2), (4), (5) of 60_exceptions.md R113, R114, then the command's own work. Check (3) is the
decoder's. -/
def checked (s : State) (work : State → State) : Out :=
  match halted s with
  | some stop => stop
  | none => .next <|
    match s.ctrlState with
    | .tornDown => raise .afterTeardown s
    | .transmitting => raise .overlap s
    | .uninit => work s
    | .ready => work s

end Sys2Proof.Machine
end

