-- ==== Sys2Proof/Machine/Operands.lean ====
section
/-! DEFINITION. What the micro-steps read: single bits of a byte (00_scope.md R16), the sequencer registers (10_state.md
R33) and the response value of a send (42_transmit.md R85). -/

namespace Sys2Proof.Machine

/-- `bit(b, k) = (b >> k) & 1` (00_scope.md R16). -/
def bit (b : Byte) (k : Nat) : Bool := b.getLsbD k

/-- A sequencer register; an `Undef` one, which no run reads, gives a free value (10_state.md R33, log 6). -/
def seqReg (r : Config.SeqReg) (v : Option Nat) : Nat := v.getD (Config.undefReg r)

/-- `s.n`. -/
def regN (s : State) : Nat := seqReg .n s.n

/-- `s.req`. -/
def regReq (s : State) : Nat := seqReg .req s.req

/-- `s.i`. -/
def regI (s : State) : Nat := seqReg .i s.i

/-- `s.send_len`. -/
def regSendLen (s : State) : Nat := seqReg .sendLen s.sendLen

/-- `s.wr_ok`. -/
def regWrOk (s : State) : Bool := s.wrOk.getD Config.undefWrOk

/-- `v(s)`, the value of a send's response: `s.send_len` for SEND, `s.buf_size` for DRIVE (42_transmit.md R85). No other
command is in progress in a send phase (log 11). -/
def sendValue (s : State) : Nat :=
  match s.cmd with
  | some (.send _) => regSendLen s
  | _ => s.bufSize

end Sys2Proof.Machine
end

