-- ==== Sys2Proof/Machine/Encoder.lean ====
section
/-! DEFINITION. The LED line encoder (40_encoder.md): the symbol function, the byte encoder and its inverse, the
pixel-write and the ENCODE command. -/

namespace Sys2Proof.Machine

/-- The symbol of a bit (40_encoder.md R68). -/
def sym (c : Config) (x : Bool) : Byte := if x then c.onePattern else c.zeroPattern

/-- The eight symbols of a byte, MSB first (40_encoder.md R69). -/
def enc (c : Config) (b : Byte) : List Byte :=
  [sym c (bit b 7), sym c (bit b 6), sym c (bit b 5), sym c (bit b 4),
   sym c (bit b 3), sym c (bit b 2), sym c (bit b 1), sym c (bit b 0)]

/-- The bit of a symbol byte, undefined for any other byte (40_encoder.md R71); a checker, no micro-step. -/
def desym (c : Config) (s : Byte) : Option Bool :=
  if s = c.onePattern then some true else if s = c.zeroPattern then some false else none

/-- `dec` on a list of symbols, after the bits already decoded: each symbol's bit comes in below them. -/
def decFrom (c : Config) (acc : Nat) : List Byte → Option Nat
  | [] => some acc
  | s :: ss =>
    match desym c s with
    | some x => decFrom c (2 * acc + x.toNat) ss
    | none => none

/-- `dec([s0..s7])`, the sum of `desym(s_k) << (7-k)`, on exactly eight symbols (40_encoder.md R71). -/
def dec (c : Config) (symbols : List Byte) : Option Byte :=
  if symbols.length = 8 then (decFrom c 0 symbols).map (BitVec.ofNat 8) else none

/-- The address of the symbol of bit step `k` of channel `ch` of pixel `p` (20_memory.md R43). -/
def slot (p ch k : Nat) : Nat := 24 * p + 8 * ch + k

/-- The 24 symbols of a pixel in channel order 0, 1, 2 (40_encoder.md R72). -/
def pixelSymbols (c : Config) (b0 b1 b2 : Byte) : List Byte := enc c b0 ++ enc c b1 ++ enc c b2

/-- What `putPixel` requires: `24*(p+1) <= buf_size - RESET_LEN` (40_encoder.md R72). -/
def pixelFits (p : Nat) (s : State) : Bool := decide (24 * (p + 1) ≤ s.bufSize - s.cfg.resetLen)

/-- `putPixel(p, b0, b1, b2)`: the 24 symbols of a pixel into its slots (40_encoder.md R72). -/
def putPixel (p : Nat) (b0 b1 b2 : Byte) (s : State) : State :=
  { s with buf := s.buf.writeBytes (slot p 0 0) (pixelSymbols s.cfg b0 b1 b2) }

/-- ENCODE: the eight symbols of a byte (40_encoder.md R70). -/
def execEncode (b : Byte) (s : State) : Out :=
  checked s fun s => finish .ok none (some (enc s.cfg b)) (accept (.encode b) s)

end Sys2Proof.Machine
end

