-- ==== Sys2Proof/Machine/FrameBuffer.lean ====
section
/-! DEFINITION. The frame buffer controller (41_framebuffer.md): `ensureCapacity`, `release`, and the ENSURE command. -/

namespace Sys2Proof.Machine

/-- The state owning a new allocation of `req` bytes in place of the old one: the last `min(req, RESET_LEN)` cells are
`Def(0x00)`, every other cell is `Undef` (41_framebuffer.md R74, R76). With `req = 0` it owns none, and no cell has a
value (10_state.md R27; log 7). -/
def reallocate (req : Nat) (s : State) : State :=
  emit (.alloc s.bufSize req)
    { s with
      bufSize := req
      buf := Memory.zeros (req - s.cfg.resetLen) (min req s.cfg.resetLen)
      allocCount := s.allocCount + 1 }

/-- `ensureCapacity(req)`: its result and the state after it (41_framebuffer.md R74 to R79). -/
def ensureCapacity (req : Nat) (s : State) : ResultCode × State :=
  if req = s.bufSize then (.ok, s)
  else if req = 0 then (.ok, reallocate 0 s)
  else if s.cfg.bufCapacity < req then (.allocationFailure, emit (.allocFail s.bufSize req) s)
  else if allocAnswer s then (.ok, reallocate req (allocAsked s))
  else (.allocationFailure, emit (.allocFail s.bufSize req) (allocAsked s))

/-- `release()`, the teardown release (41_framebuffer.md R80). -/
def release (s : State) : State :=
  { (if s.bufSize = 0 then s else emit (.release s.bufSize) s) with bufSize := 0, buf := [] }

/-- ENSURE after the common checks (41_framebuffer.md R81). -/
def ensure (req : Nat) (s : State) : State :=
  finish (ensureCapacity req s).1 (some (ensureCapacity req s).2.bufSize) none (ensureCapacity req s).2

/-- ENSURE: resize the frame buffer (41_framebuffer.md R81). -/
def execEnsure (req : Nat) (s : State) : Out :=
  checked s fun s => ensure req (accept (.ensure req) s)

end Sys2Proof.Machine
end

