-- ==== Sys2Proof/Machine/Controller.lean ====
section
/-! DEFINITION. The controller sequencer and the lifecycle commands (43_controller.md): INIT, MAXRATE, DRIVE with its
phases D_SIZE to D_CHECK, and TEARDOWN. -/

namespace Sys2Proof.Machine

/-- The Bus has answered `open()`: INIT's result (43_controller.md R93). -/
def opened (ok : Bool) (s : State) : State :=
  if ok then finish .ok none none { s with busHeld := true, ctrlState := .ready }
  else finish .busUnavailable none none s

/-- INIT after the common checks (43_controller.md R93). -/
def init (s : State) : State :=
  if s.ctrlState = .ready then raise .alreadyInitialized s
  else opened (openAnswer s) (emit (.busOpen (openAnswer s)) (openAsked (accept .init s)))

/-- INIT: acquire the bus handle (43_controller.md R93). -/
def execInit (s : State) : Out := checked s init

/-- MAXRATE: report the refresh-rate ceiling (43_controller.md R94). -/
def execMaxrate (s : State) : Out :=
  checked s fun s => finish .ok (some Config.maxRefreshRate) none (accept .maxrate s)

/-- DRIVE after the common checks: the acceptance micro-step (43_controller.md R96). -/
def drive (s : State) : State :=
  if s.ctrlState = .uninit then raise .notInitialized s
  else { accept .drive s with ctrlState := .transmitting, phase := .dSize }

/-- DRIVE: encode one frame from the PixelSource and transmit it; the phases follow (43_controller.md R96). -/
def execDrive (s : State) : Out := checked s drive

/-- TEARDOWN after the common checks (43_controller.md R105). -/
def teardown (s : State) : State :=
  finish .ok none none { release s with busHeld := false, ctrlState := .tornDown }

/-- TEARDOWN: destroy the instance and release its resources (43_controller.md R105). -/
def execTeardown (s : State) : Out := checked s fun s => teardown (accept .teardown s)

/-- The frame buffer size of `n` pixels, exact (43_controller.md R97, 00_scope.md R17). -/
def frameSize (c : Config) (n : Nat) : Nat := Config.symbolsPerPixel * n + c.resetLen

/-- Phase D_SIZE: compute the required size (43_controller.md R97). -/
def phaseDSize (s : State) : State :=
  { emit (.srcSize (sizeAnswer s)) (sizeAsked s) with
    n := some (sizeAnswer s), req := some (frameSize s.cfg (sizeAnswer s)), phase := .dAlloc }

/-- The buffer has the required size: the first pixel, or the check where there is none (43_controller.md R98). -/
def allocated (s : State) : State :=
  { s with i := some 0, phase := if regN s = 0 then .dCheck else .dPixel }

/-- Phase D_ALLOC: make sure the buffer has the required size (43_controller.md R98). -/
def phaseDAlloc (s : State) : State :=
  match ensureCapacity (regReq s) s with
  | (.ok, s') => allocated s'
  | (code, s') => finish code (some s'.bufSize) none s'

/-- The requests `nextScaled0`, `nextScaled1`, `nextScaled2` with their answers, in this order (43_controller.md R99). -/
def takePixel (b0 b1 b2 : Byte) (s : State) : State :=
  emit (.srcByte 2 b2) (emit (.srcByte 1 b1) (emit (.srcByte 0 b0) (scaledAsked s)))

/-- The pixel is encoded: `advance`, `stepDithering`, and the next pixel or the check (43_controller.md R99). -/
def pixelDone (s : State) : State :=
  { emit .srcDither (emit .srcAdvance s) with
    i := some (regI s + 1), phase := if regI s + 1 = regN s then .dCheck else .dPixel }

/-- The source has a pixel: pull its three bytes and encode them (43_controller.md R99). The requirement of `putPixel`
holds in every run; where it would not, the machine stops (40_encoder.md R72, log 12). -/
def encodePixel (s : State) : Out :=
  let b0 := scaledAnswer 0 s
  let b1 := scaledAnswer 1 s
  let b2 := scaledAnswer 2 s
  if pixelFits (regI s) s then .next (pixelDone (putPixel (regI s) b0 b1 b2 (takePixel b0 b1 b2 s)))
  else .fault .pixelOutsideBuffer

/-- `hasNext(1)` and its event. -/
def askHasNext (s : State) : State := emit (.srcHasNext (hasNextAnswer s)) (hasNextAsked s)

/-- The stream does not have the promised length: the cycle ends (43_controller.md R99, R100, R101). -/
def mismatch (s : State) : State := finish .streamLengthMismatch (some s.bufSize) none s

/-- Phase D_PIXEL: encode one pixel (43_controller.md R99). -/
def phaseDPixel (s : State) : Out :=
  if hasNextAnswer s then encodePixel (askHasNext s) else .next (mismatch (askHasNext s))

/-- The source is exhausted: the send of the whole frame is next (43_controller.md R100). -/
def frameComplete (s : State) : State := { s with sendLen := some s.bufSize, phase := .sBegin }

/-- Phase D_CHECK: the source must be exhausted (43_controller.md R100). -/
def phaseDCheck (s : State) : State :=
  if hasNextAnswer s then mismatch (askHasNext s) else frameComplete (askHasNext s)

end Sys2Proof.Machine
end

