-- ==== Sys2Proof/Machine/Transmit.lean ====
section
/-! DEFINITION. The transmit sequence and the bus interface (42_transmit.md): the SEND command, the phases S_BEGIN,
S_WRITE and S_END that DRIVE and SEND share, and the bits a send puts on the line. -/

namespace Sys2Proof.Machine

/-- BUS_CFG, the one configuration of every transaction the block opens (42_transmit.md R83, 00_scope.md R11). -/
def busCfg (c : Config) : BusCfg := { clock := c.busClockHz, bitOrder := .msbFirst, mode := 0 }

/-- SEND's acceptance, once its checks have passed (42_transmit.md R84). -/
def sendAccepted (len : Nat) (s : State) : State :=
  { accept (.send len) s with ctrlState := .transmitting, sendLen := some len, phase := .sBegin }

/-- SEND after the common checks: its own checks in the order of 42_transmit.md R84. -/
def send (len : Nat) (s : State) : State :=
  if s.ctrlState = .uninit then raise .notInitialized s
  else if s.bufSize < len then raise .bufferOverrun s
  else if (s.buf.readBytes 0 len).isNone then raise .undefinedRead s
  else sendAccepted len s

/-- SEND: transmit the first `len` bytes of the frame buffer (42_transmit.md R84). -/
def execSend (len : Nat) (s : State) : Out := checked s (send len)

/-- A transaction the Bus did not open ends the command (42_transmit.md R85). -/
def beginFailed (s : State) : State :=
  finish .busUnavailable (some (sendValue s)) none { s with begun := some false }

/-- The Bus has opened the transaction: `issue Bus.writeBytes(bytes, L)` (42_transmit.md R85). -/
def writeIssued (bytes : List Byte) (s : State) : State :=
  { withEnv { s.env with busReq := some bytes } s with begun := some true, phase := .sWrite }

/-- Phase S_BEGIN: the snapshot, then `beginTransaction` (42_transmit.md R85). An `Undef` cell in the snapshot, which
no run reads, raises UNDEFINED_READ (00_scope.md R18). -/
def phaseSBegin (s : State) : State :=
  match s.buf.readBytes 0 (regSendLen s) with
  | none => raise .undefinedRead s
  | some bytes =>
    let s' := emit (.busBegin (busCfg s.cfg) (beginAnswer s)) (beginAsked s)
    if beginAnswer s then writeIssued bytes s' else beginFailed s'

/-- The Bus completes the pending write with `(e, ok)`, `e` at most the length of the request (42_transmit.md R86, R88;
how `e` is bounded: log 5). -/
def writeCompleted (bytes : List Byte) (e : Nat) (ok : Bool) (s : State) : State :=
  { emit (.busWrite bytes (min e bytes.length) ok) (withEnv { s.env with busReq := none } s) with
    wrOk := some ok, phase := .sEnd }

/-- Phase S_WRITE: the block holds until the Bus completes the write (42_transmit.md R86, R88; log 4). -/
def phaseSWrite (s : State) : State :=
  match s.env.busReq with
  | none => s
  | some bytes =>
    match writeAnswer s with
    | none => writeAsked s
    | some (e, ok) => writeCompleted bytes e ok (writeAsked s)

/-- Phase S_END: closes the transaction, whatever the write's outcome, and ends the command (42_transmit.md R87). -/
def phaseSEnd (s : State) : State :=
  finish (if regWrOk s then .ok else .busUnavailable) (some (sendValue s)) none (emit .busEnd s)

/-- The bits of a byte on the line, bit 7 first (20_memory.md R45). -/
def byteLine (b : Byte) : List Bool :=
  [bit b 7, bit b 6, bit b 5, bit b 4, bit b 3, bit b 2, bit b 1, bit b 0]

/-- `line_e`: the bits a completed write puts on the line (42_transmit.md R89). -/
def lineBits (bytes : List Byte) (e : Nat) : List Bool := (bytes.take e).flatMap byteLine

/-- The bits an event puts on the line: only a completed write does. -/
def eventLine : Event → List Bool
  | .busWrite bytes e _ => lineBits bytes e
  | _ => []

/-- All the bits the line has carried since reset (20_memory.md R45). -/
def line (s : State) : List Bool := s.events.flatMap eventLine

end Sys2Proof.Machine
end

