-- ==== Sys2Proof/Machine/Sequencer.lean ====
section
/-! DEFINITION. Which micro-step the block takes in each phase (10_state.md R32, 43_controller.md R104), and how the
Host's word reaches it (30_encoding.md R58, 60_exceptions.md R113). -/

namespace Sys2Proof.Machine

/-- The micro-step of the current phase. In IDLE no command is in progress and nothing happens (log 2). -/
def microStep (s : State) : Out :=
  match s.phase with
  | .idle => .next s
  | .dSize => .next (phaseDSize s)
  | .dAlloc => .next (phaseDAlloc s)
  | .dPixel => phaseDPixel s
  | .dCheck => .next (phaseDCheck s)
  | .sBegin => .next (phaseSBegin s)
  | .sWrite => .next (phaseSWrite s)
  | .sEnd => .next (phaseSEnd s)

/-- The block takes a word, legal or not: the Host has moved, and `Cmd(w)` is emitted (60_exceptions.md R113). -/
def takeWord (w : Word) (s : State) : State := emit (.cmd w) (hostMoved s)

/-- A step in which the Host is silent: the block or the Bus moves. -/
def silentStep (s : State) : Out := microStep (hostMoved s)

/-- The Host presents a word in the very next step, in place of what it would have done (log 2). -/
def present (w : Word) (s : State) : State := withEnv { s.env with host := some w :: s.env.host.tail } s

end Sys2Proof.Machine
end

