-- ==== Sys2Proof/Machine/Dispatch.lean ====
section
/-! DEFINITION. The acceptance micro-step of every command (60_exceptions.md R113), one arm per constructor. -/

namespace Sys2Proof.Machine

-- The word itself, its Cmd event and its decoding belong to step (Step.lean).
def exec (i : Instr) (s : State) : Host.Outcome State Fault Refusal :=
  match i with
  | .init => Sys2Proof.Machine.execInit s
  | .maxrate => Sys2Proof.Machine.execMaxrate s
  | .encode b => Sys2Proof.Machine.execEncode b s
  | .ensure req => Sys2Proof.Machine.execEnsure req s
  | .drive => Sys2Proof.Machine.execDrive s
  | .send len => Sys2Proof.Machine.execSend len s
  | .teardown => Sys2Proof.Machine.execTeardown s

end Sys2Proof.Machine
end

