-- ==== Sys2Proof/Machine/Step.lean ====
section
/-! DEFINITION. One step of the machine: the Host's word is accepted, or the block or the Bus takes its micro-step
(00_scope.md R20, 60_exceptions.md R113). -/

namespace Sys2Proof.Machine

/-- One step. Checks (1) and (2) of 60_exceptions.md R113 come first; then a word the Host gives is taken, check (3)
decodes it, and `exec` accepts it; where the Host is silent, the phase's micro-step runs. -/
def step (s : State) : Host.Outcome State Fault Refusal :=
  match halted s with
  | some stop => stop
  | none =>
    match hostMove s with
    | some w =>
      match decode w with
      | .command i => exec i (takeWord w s)
      | .illegal _ => .next (raise .illegalCommand (takeWord w s))
    | none => silentStep s

/-- The state in which the Host gives the word `w` of `nbits` bits in the very next step (log 2). -/
def State.withFetchWord (s : State) (nbits w : Nat) : State := present (BitVec.ofNat 32 (w % 2 ^ nbits)) s

end Sys2Proof.Machine
end

