-- ==== Sys2Proof/Machine/Source.lean ====
section
/-! DEFINITION. The PixelSource script of a program's DRIVE, `src: size=N, bytes=[...], extra=...` (30_encoding.md R67),
as answers of the PixelSource agent (43_controller.md R95). -/

namespace Sys2Proof.Machine

/-- A script: what `size()` answers, the bytes of each pixel, and whether a pixel too many is announced. -/
structure PixelScript where
  size   : Nat
  pixels : List (Byte × Byte × Byte)
  extra  : Bool
  deriving DecidableEq, Repr

/-- The bytes of the pixels in the order they are asked for (43_controller.md R99). -/
def scaledBytes (pixels : List (Byte × Byte × Byte)) : List Byte :=
  pixels.flatMap fun p => [p.1, p.2.1, p.2.2]

/-- The `hasNext(1)` answers: true before each listed pixel, `extra` after the last (30_encoding.md R67). -/
def PixelScript.nexts (p : PixelScript) : List Bool := List.replicate p.pixels.length true ++ [p.extra]

/-- The PixelSource follows the script first. -/
def loadScript (p : PixelScript) (s : State) : State :=
  withEnv { s.env with
    sizes := p.size :: s.env.sizes
    nexts := p.nexts ++ s.env.nexts
    scaled := scaledBytes p.pixels ++ s.env.scaled } s

/-- `SOURCE_CONSISTENT(n)`: `size()` answers n, and there are exactly n pixels (43_controller.md R95). -/
def PixelScript.consistent (p : PixelScript) : Bool := p.pixels.length == p.size && !p.extra

end Sys2Proof.Machine
end

