-- ==== Sys2Proof/Safety.lean ====
section
/-! DEFINITION. What a claim calls a safe state or a safe run: the preconditions of acceptance (60_exceptions.md R113),
the invariants of 10_state.md (R25, R26, R27, R32, R33, R35, R36), and the discipline of the event history
(42_transmit.md R90, 10_state.md R34, R36). -/

namespace Sys2Proof.Machine

/-- Checks (1) and (2) of 60_exceptions.md R113 do not hold: the machine has a step. -/
abbrev Live (s : State) : Prop := s.refused = false ∧ s.fault = none

/-- None of the common checks (1), (2), (4), (5) of 60_exceptions.md R113 holds: UNINIT or READY. -/
abbrev Accepting (s : State) : Prop := Live s ∧ (s.ctrlState = .uninit ∨ s.ctrlState = .ready)

/-- The lifecycle invariants: the handle is held exactly in READY and TRANSMITTING (10_state.md R25), a phase other than
IDLE is exactly TRANSMITTING (R32), the size is within the capacity (R26), and `refused` says whether the configuration
is admitted (R37). -/
structure Lifecycle (s : State) : Prop where
  handle   : s.busHeld = true ↔ s.ctrlState = .ready ∨ s.ctrlState = .transmitting
  sequence : s.phase ≠ .idle ↔ s.ctrlState = .transmitting
  capacity : s.bufSize ≤ s.cfg.bufCapacity
  admitted : s.refused = !s.cfg.admitted

/-- TAIL: every cell of the reset tail is `Def(0x00)` (10_state.md R35). -/
def Tail (s : State) : Prop := ∀ a, s.bufSize - s.cfg.resetLen ≤ a → a < s.bufSize → s.buf.read a = some 0

/-- The storage: cells in canonical form, none with a value at or above `buf_size` (10_state.md R27), and below the tail
nothing but symbols (40_encoder.md R68). -/
structure Storage (s : State) : Prop where
  canonical : s.buf.wf = true
  outside   : ∀ a, s.bufSize ≤ a → s.buf.read a = none
  encoded   : ∀ a, a < s.bufSize - s.cfg.resetLen →
    s.buf.read a = none ∨ s.buf.read a = some s.cfg.onePattern ∨ s.buf.read a = some s.cfg.zeroPattern

/-- Every cell below `len` is `Def`. -/
def DefinedBelow (s : State) (len : Nat) : Prop := ∀ a, a < len → (s.buf.read a).isSome

/-- A send is under way: which command it belongs to, and its length within the buffer (42_transmit.md R84, R92). -/
def Sending (s : State) : Prop :=
  ∃ len, s.sendLen = some len ∧ len ≤ s.bufSize ∧ DefinedBelow s len ∧
    (s.cmd = some (.send len) ∨ (s.cmd = some .drive ∧ len = s.bufSize))

/-- Each phase finds the sequencer registers it reads written (10_state.md R33), and the frame as far as it must be
(43_controller.md R98, R99, R100, 42_transmit.md R85, 20_memory.md R52). -/
def Sequenced (s : State) : Prop :=
  match s.phase with
  | .idle => True
  | .dSize => s.cmd = some .drive
  | .dAlloc => s.cmd = some .drive ∧ ∃ n, s.n = some n ∧ s.req = some (24 * n + s.cfg.resetLen)
  | .dPixel => s.cmd = some .drive ∧ ∃ n i, s.n = some n ∧ s.i = some i ∧ i < n ∧
      s.bufSize = 24 * n + s.cfg.resetLen ∧ DefinedBelow s (24 * i)
  | .dCheck => s.cmd = some .drive ∧ ∃ n, s.n = some n ∧ s.bufSize = 24 * n + s.cfg.resetLen ∧
      DefinedBelow s (24 * n)
  | .sBegin => Sending s
  | .sWrite => Sending s ∧ s.begun = some true ∧
      ∃ bytes, s.env.busReq = some bytes ∧ s.buf.readBytes 0 (regSendLen s) = some bytes
  | .sEnd => Sending s ∧ s.begun = some true ∧ s.wrOk.isSome

/-- Where the bus transaction stands after a history of events. -/
inductive Txn where
  /-- No transaction is open. -/
  | closed
  /-- Opened, nothing written. -/
  | opened
  /-- Written, not closed. -/
  | written
  /-- The discipline of 42_transmit.md R90 was broken. -/
  | broken
  deriving DecidableEq, Repr

/-- A begin that succeeds is followed by one write, then one end, then a response; one that fails by neither write nor
end (42_transmit.md R90). -/
def Txn.after : Txn → Event → Txn
  | .closed, .busBegin _ true => .opened
  | .closed, .busWrite _ _ _ => .broken
  | .closed, .busEnd => .broken
  | .opened, .busWrite _ _ _ => .written
  | .opened, .busBegin _ _ => .broken
  | .opened, .busEnd => .broken
  | .opened, .resp _ => .broken
  | .written, .busEnd => .closed
  | .written, .busBegin _ _ => .broken
  | .written, .busWrite _ _ _ => .broken
  | .written, .resp _ => .broken
  | t, _ => t

/-- The transaction after a whole history. -/
def txn (events : List Event) : Txn := events.foldl Txn.after .closed

/-- The transaction a phase has open. -/
def Phase.txn : Phase → Txn
  | .sWrite => .opened
  | .sEnd => .written
  | _ => .closed

/-- The scoped discipline of 42_transmit.md R90, together with where the sequencer stands. -/
def Disciplined (s : State) : Prop := txn s.events = s.phase.txn

/-- What the block owns after an event: an allocation replaces exactly what was owned, a failed one keeps it, a release
gives it up; `none` once the history has lost or doubled an allocation (10_state.md R36). -/
def ownedStep : Option Nat → Event → Option Nat
  | some owned, .alloc old new => if old = owned then some new else none
  | some owned, .allocFail old _ => if old = owned then some owned else none
  | some owned, .release old => if old = owned then some 0 else none
  | owned, _ => owned

/-- What the block owns after a whole history, from nothing. -/
def ownedAfter (events : List Event) : Option Nat := events.foldl ownedStep (some 0)

/-- Whether an event is a successful reallocation. -/
def Event.isAlloc : Event → Bool
  | .alloc _ _ => true
  | _ => false

/-- OWN: the history and the state agree on the one allocation owned (10_state.md R36) and on how many reallocations
there were (R34). -/
structure Owned (s : State) : Prop where
  ledger : ownedAfter s.events = some s.bufSize
  count  : s.allocCount = s.events.countP Event.isAlloc

/-- Whether an event records a request to the PixelSource (43_controller.md R95). -/
def Event.isSource : Event → Bool
  | .srcSize _ => true
  | .srcHasNext _ => true
  | .srcByte _ _ => true
  | .srcAdvance => true
  | .srcDither => true
  | _ => false

/-- `status` is the code of `resp` (10_state.md R28, R30). -/
def Responded (s : State) : Prop := ∀ r, s.resp = some r → r.code = s.status

/-- Every transaction of the history was opened with BUS_CFG (42_transmit.md R83). -/
def FixedBusCfg (s : State) : Prop := ∀ cfg ok, Event.busBegin cfg ok ∈ s.events →
  cfg = { clock := s.cfg.busClockHz, bitOrder := .msbFirst, mode := 0 }

/-- The state without what no micro-step reads: `status`, `alloc_count` and the event history (10_state.md R28, R34,
R39). -/
def unread (s : State) : State := { s with status := .ok, allocCount := 0, events := [] }

/-- `k` steps, stopping at the first stop. -/
def steps : Nat → State → Out
  | 0, s => .next s
  | k + 1, s =>
    match step s with
    | .next s' => steps k s'
    | stop => stop

/-- The entry of the lifecycle table for a command in a lifecycle state, of the state its acceptance leaves
(43_controller.md R106). -/
def lifecycleEntry (before : CtrlState) (i : Instr) (t : State) : Prop :=
  match before, i with
  | .uninit, .init => t.fault = none ∧ (t.ctrlState = .ready ∨ t.ctrlState = .uninit)
  | .uninit, .maxrate => t.fault = none ∧ t.ctrlState = .uninit
  | .uninit, .encode _ => t.fault = none ∧ t.ctrlState = .uninit
  | .uninit, .ensure _ => t.fault = none ∧ t.ctrlState = .uninit
  | .uninit, .drive => t.fault = some .notInitialized
  | .uninit, .send _ => t.fault = some .notInitialized
  | .uninit, .teardown => t.fault = none ∧ t.ctrlState = .tornDown
  | .ready, .init => t.fault = some .alreadyInitialized
  | .ready, .maxrate => t.fault = none ∧ t.ctrlState = .ready
  | .ready, .encode _ => t.fault = none ∧ t.ctrlState = .ready
  | .ready, .ensure _ => t.fault = none ∧ t.ctrlState = .ready
  | .ready, .drive => t.fault = none ∧ t.ctrlState = .transmitting
  | .ready, .send _ => t.fault = none ∧ t.ctrlState = .transmitting ∨
      t.ctrlState = .ready ∧ (t.fault = some .bufferOverrun ∨ t.fault = some .undefinedRead)
  | .ready, .teardown => t.fault = none ∧ t.ctrlState = .tornDown
  | .transmitting, _ => t.fault = some .overlap
  | .tornDown, _ => t.fault = some .afterTeardown

/-- The lifecycle transitions that exist, and staying (10_state.md R24). -/
def lifecycleMove (before after : CtrlState) : Prop :=
  after = before ∨ (before = .uninit ∧ after = .ready) ∨ (before = .ready ∧ after = .transmitting) ∨
    (before = .transmitting ∧ after = .ready) ∨ (before = .uninit ∧ after = .tornDown) ∨
    (before = .ready ∧ after = .tornDown)

/-- An outcome seen through a view of the state. -/
def viewOf (view : State → State) : Out → Out
  | .next s => .next (view s)
  | .fault r => .fault r
  | .refused r => .refused r

end Sys2Proof.Machine
end

