-- ==== Sys2Proof/Certificates/Slice0/Obligations.lean ====
section
/-! DEFINITION. The statements for the provers, one per rule or group of rules of spec/; OBLIGATIONS.json lists them.
Phases are stated of `microStep`, the step of the block or the Bus; `SilentHostRunsThePhase` ties it to `step`. -/

open Sys2Proof Sys2Proof.Machine

/-! ## Encoding (30_encoding.md) -/

/-- R63: the decode function, by the word's number: OP its lowest four bits, RSV the next four, OPND the rest. -/
def Obligations.DecodeByFields : Prop :=
  ∀ w : Word,
    let op := w.toNat % 16
    let rsv := w.toNat / 16 % 16
    let opnd := w.toNat / 256
    (rsv ≠ 0 → ∃ why, decode w = .illegal why) ∧
    (rsv = 0 →
      (op = 1 → opnd = 0 → decode w = .command .init) ∧
      (op = 2 → opnd = 0 → decode w = .command .maxrate) ∧
      (op = 3 → opnd < 256 → decode w = .command (.encode (BitVec.ofNat 8 opnd))) ∧
      (op = 4 → decode w = .command (.ensure opnd)) ∧
      (op = 5 → opnd = 0 → decode w = .command .drive) ∧
      (op = 6 → decode w = .command (.send opnd)) ∧
      (op = 7 → opnd = 0 → decode w = .command .teardown) ∧
      ((op = 1 ∨ op = 2 ∨ op = 5 ∨ op = 7) → opnd ≠ 0 → ∃ why, decode w = .illegal why) ∧
      (op = 3 → 256 ≤ opnd → ∃ why, decode w = .illegal why) ∧
      (op = 0 ∨ 8 ≤ op → ∃ why, decode w = .illegal why))

/-- R62: the (match, mask) pair of each command selects exactly the words that decode to it, so no word has two. -/
def Obligations.MatchAndMaskSelectTheCommand : Prop :=
  ∀ w : Word,
    (w &&& 0xFFFFFFFF = 0x00000001 ↔ decode w = .command .init) ∧
    (w &&& 0xFFFFFFFF = 0x00000002 ↔ decode w = .command .maxrate) ∧
    (w &&& 0xFFFF00FF = 0x00000003 ↔ ∃ b, decode w = .command (.encode b)) ∧
    (w &&& 0x000000FF = 0x00000004 ↔ ∃ req, decode w = .command (.ensure req)) ∧
    (w &&& 0xFFFFFFFF = 0x00000005 ↔ decode w = .command .drive) ∧
    (w &&& 0x000000FF = 0x00000006 ↔ ∃ len, decode w = .command (.send len)) ∧
    (w &&& 0xFFFFFFFF = 0x00000007 ↔ decode w = .command .teardown)

/-- Decoding the word of a well-formed command gives it back, with its whole operand. -/
def Obligations.DecodeOfEncode : Prop :=
  ∀ i : Instr, i.wf = true → decode (encode i) = .command i

/-- Every word that decodes is the word of the command it decodes to, and that command is well-formed. -/
def Obligations.EncodeOfDecode : Prop :=
  ∀ (w : Word) (i : Instr), decode w = .command i → i.wf = true ∧ encode i = w

/-- A few words of 95_test_vectors.md 2.1. -/
def Obligations.DecodesSampleWords : Prop :=
  decode 0x00000001 = .command .init ∧ decode 0x00000002 = .command .maxrate ∧
  decode 0x00008103 = .command (.encode 0x81) ∧ decode 0xFFFFFF04 = .command (.ensure 16777215) ∧
  decode 0x00000005 = .command .drive ∧ decode 0x00002206 = .command (.send 34) ∧
  decode 0x00000007 = .command .teardown

/-- R67: exactly what assembles: each bare mnemonic without an operand, ENCODE of a byte, ENSURE and SEND of a number up
to 2^24 - 1, and nothing else; and the word each gives. The layout of a line, one blank between the mnemonic and the
number, is the model's (log 16). -/
def Obligations.AssembledOperandsAreInRange : Prop :=
  (∀ (mnemonic : List Char) (operand : Option Nat) (i : Instr), assembleParts mnemonic operand = some i ↔
    (operand = none ∧
      (mnemonic = ['I', 'N', 'I', 'T'] ∧ i = .init ∨
        mnemonic = ['M', 'A', 'X', 'R', 'A', 'T', 'E'] ∧ i = .maxrate ∨
        mnemonic = ['D', 'R', 'I', 'V', 'E'] ∧ i = .drive ∨
        mnemonic = ['T', 'E', 'A', 'R', 'D', 'O', 'W', 'N'] ∧ i = .teardown) ∨
      ∃ v, operand = some v ∧
        (mnemonic = ['E', 'N', 'C', 'O', 'D', 'E'] ∧ v ≤ 255 ∧ i = .encode (BitVec.ofNat 8 v) ∨
          mnemonic = ['E', 'N', 'S', 'U', 'R', 'E'] ∧ v ≤ 16777215 ∧ i = .ensure v ∨
          mnemonic = ['S', 'E', 'N', 'D'] ∧ v ≤ 16777215 ∧ i = .send v))) ∧
  (∀ v, v ≤ 255 → (encode (.encode (BitVec.ofNat 8 v))).toNat = v * 256 + 3) ∧
  (∀ v, v ≤ 16777215 → (encode (.ensure v)).toNat = v * 256 + 4 ∧ (encode (.send v)).toNat = v * 256 + 6) ∧
  ∀ mnemonic : List Char, ' ' ∉ mnemonic →
    assemble mnemonic = (assembleParts mnemonic none).map encode ∧
    ∀ text, assemble (mnemonic ++ ' ' :: text) =
      (parseNumber text).bind fun v => (assembleParts mnemonic (some v)).map encode

/-! ## How a word reaches its command (60_exceptions.md R110, R111, R113) -/

/-- A word that decodes to a command: `Cmd(w)` is emitted, the Host has moved, and the command is accepted. -/
def Obligations.StepRunsTheDecodedCommand : Prop :=
  ∀ (s : State) (w : Word) (rest : List (Option Word)) (i : Instr),
    Live s → s.env.host = some w :: rest → decode w = .command i →
    step s = exec i { s with events := s.events ++ [.cmd w], env := { s.env with host := rest } }

/-- R64: which words are illegal, and that one raises ILLEGAL_COMMAND and changes no other state than the history. -/
def Obligations.IllegalWordFaults : Prop :=
  (∀ w : Word, (∃ why, decode w = .illegal why) ↔
    (w.toNat % 16 = 0 ∨ 8 ≤ w.toNat % 16 ∨ w.toNat / 16 % 16 ≠ 0 ∨
      (256 ≤ w.toNat ∧ (w.toNat % 16 = 1 ∨ w.toNat % 16 = 2 ∨ w.toNat % 16 = 5 ∨ w.toNat % 16 = 7)) ∨
      (65536 ≤ w.toNat ∧ w.toNat % 16 = 3))) ∧
  ∀ (s : State) (w : Word) (why : IllegalWord) (rest : List (Option Word)),
    Live s → s.env.host = some w :: rest → decode w = .illegal why →
    step s = .next { s with
      fault := some .illegalCommand
      events := s.events ++ [.cmd w, .fault .illegalCommand]
      env := { s.env with host := rest } }

/-- A silent Host leaves the step to the block or the Bus. -/
def Obligations.SilentHostRunsThePhase : Prop :=
  ∀ s : State, Live s → (s.env.host = [] ∨ ∃ rest, s.env.host = none :: rest) →
    step s = microStep { s with env := { s.env with host := s.env.host.tail } }

/-- R110: a fault is raised by a word of the Host, at its acceptance; it is recorded with its event and nothing else is
written; afterwards nothing has a step. -/
def Obligations.RaisedFaultWritesNothingElse : Prop :=
  (∀ (s t : State) (c : FaultCode), Sequenced s → step s = .next t → t.fault = some c →
    ∃ w rest, s.env.host = some w :: rest ∧
      t = { s with
        fault := some c
        events := s.events ++ [.cmd w, .fault c]
        env := { s.env with host := rest } }) ∧
  (∀ (s : State) (c : FaultCode), s.refused = false → s.fault = some c →
    step s = .fault (.quiescent c) ∧ ∀ i, exec i s = .fault (.quiescent c))

/-- R111: an instantiation that is not admitted has no step and accepts no command, for one of the two reasons that
holds of its configuration. -/
def Obligations.RefusedInstanceNeverSteps : Prop :=
  ∀ s : State, s.refused = true → s.refused = !s.cfg.admitted →
    ∃ r, step s = .refused r ∧ (∀ i, exec i s = .refused r) ∧
      (r = .configFlip ∧ s.cfg.flip = true ∨ r = .configPatternsEqual ∧ s.cfg.onePattern = s.cfg.zeroPattern)

/-- R113: the checks of acceptance in their order, of which the first that holds takes effect; where none holds the
command is accepted, without a fault. -/
def Obligations.AcceptanceChecksInOrder : Prop :=
  ∀ (s : State) (w : Word) (rest : List (Option Word)), s.env.host = some w :: rest →
    let raised (c : FaultCode) : Prop := step s = .next { s with
      fault := some c
      events := s.events ++ [.cmd w, .fault c]
      env := { s.env with host := rest } }
    let accepted : Prop := ∃ t, step s = .next t ∧ t.fault = none ∧ ∃ new, t.events = s.events ++ .cmd w :: new
    if s.refused then ∃ r, step s = .refused r
    else if s.fault ≠ none then ∃ c, step s = .fault (.quiescent c)
    else match decode w with
      | .illegal _ => raised .illegalCommand
      | .command i =>
        if s.ctrlState = .tornDown then raised .afterTeardown
        else if s.ctrlState = .transmitting then raised .overlap
        else match i with
          | .init => if s.ctrlState = .ready then raised .alreadyInitialized else accepted
          | .maxrate => accepted
          | .encode _ => accepted
          | .ensure _ => accepted
          | .drive => if s.ctrlState = .uninit then raised .notInitialized else accepted
          | .send len =>
            if s.ctrlState = .uninit then raised .notInitialized
            else if s.bufSize < len then raised .bufferOverrun
            else (DefinedBelow s len → accepted) ∧ (¬DefinedBelow s len → raised .undefinedRead)
          | .teardown => accepted

/-- R113 (4) and (5): after TEARDOWN and during a transmission every command faults. -/
def Obligations.TornDownAndBusyFault : Prop :=
  ∀ (i : Instr) (s : State), Live s →
    (s.ctrlState = .tornDown → exec i s = .next { s with
      fault := some .afterTeardown, events := s.events ++ [.fault .afterTeardown] }) ∧
    (s.ctrlState = .transmitting → exec i s = .next { s with
      fault := some .overlap, events := s.events ++ [.fault .overlap] })

/-- R93 and R96, R84 check 1: INIT in READY, DRIVE and SEND in UNINIT. -/
def Obligations.LifecycleFaults : Prop :=
  ∀ s : State, Live s →
    (s.ctrlState = .ready → exec .init s = .next { s with
      fault := some .alreadyInitialized, events := s.events ++ [.fault .alreadyInitialized] }) ∧
    (s.ctrlState = .uninit →
      exec .drive s = .next { s with
        fault := some .notInitialized, events := s.events ++ [.fault .notInitialized] } ∧
      ∀ len, exec (.send len) s = .next { s with
        fault := some .notInitialized, events := s.events ++ [.fault .notInitialized] })

/-- R106: the lifecycle table, at the acceptance of every command in every lifecycle state. -/
def Obligations.LifecycleTable : Prop :=
  ∀ (i : Instr) (s : State), Live s → ∃ t, exec i s = .next t ∧ lifecycleEntry s.ctrlState i t

/-! ## The encoder (40_encoder.md) -/

/-- R69: eight symbols, MSB first, each ONE_PATTERN exactly where the bit is 1. -/
def Obligations.SymbolsAreMsbFirst : Prop :=
  ∀ (c : Config) (b : Byte), (enc c b).length = 8 ∧
    ∀ k, k < 8 → (enc c b)[k]? = some (if b.getLsbD (7 - k) then c.onePattern else c.zeroPattern)

/-- R71: with distinct patterns the eight symbols of a byte decode to it. -/
def Obligations.SymbolsDecodeToTheirByte : Prop :=
  ∀ (c : Config) (b : Byte), c.onePattern ≠ c.zeroPattern → dec c (enc c b) = some b

/-- R43: `slot` is a bijection from the pixels, channels and bit steps of a frame onto its encoded region. -/
def Obligations.SlotsTileTheEncodedRegion : Prop :=
  ∀ n a : Nat, (a < 24 * n ↔ ∃ p ch k, p < n ∧ ch < 3 ∧ k < 8 ∧ slot p ch k = a) ∧
    ∀ p ch k p' ch' k', ch < 3 → k < 8 → ch' < 3 → k' < 8 → slot p ch k = slot p' ch' k' →
      p = p' ∧ ch = ch' ∧ k = k'

/-- R70: ENCODE in UNINIT and in READY answers the symbols of its byte and changes nothing else. -/
def Obligations.EncodeAnswersTheSymbols : Prop :=
  ∀ (s : State) (b : Byte), Accepting s →
    exec (.encode b) s = .next { s with
      status := .ok
      resp := some { code := .ok, value := none, symbols := some (enc s.cfg b) }
      cmd := none
      phase := .idle
      events := s.events ++ [.resp { code := .ok, value := none, symbols := some (enc s.cfg b) }] }

/-! ## The frame buffer controller (41_framebuffer.md) -/

/-- R75: `ensureCapacity` of the present size writes nothing at all, so ENSURE of it answers OK, touches neither the
buffer nor the count, and asks no Allocator. -/
def Obligations.EnsureSameSizeKeepsTheBuffer : Prop :=
  ∀ s : State,
    ensureCapacity s.bufSize s = (.ok, s) ∧
    (Accepting s → exec (.ensure s.bufSize) s = .next { s with
      status := .ok
      resp := some { code := .ok, value := some s.bufSize, symbols := none }
      cmd := none
      phase := .idle
      events := s.events ++ [.resp { code := .ok, value := some s.bufSize, symbols := none }] })

/-- R74, R76: ENSURE of another size the Allocator grants replaces the allocation: the tail is zero, every other cell is
`Undef`. -/
def Obligations.EnsureReplacesTheAllocation : Prop :=
  ∀ (s : State) (req : Nat), Accepting s → req ≠ s.bufSize → 0 < req → req ≤ s.cfg.bufCapacity →
    allocAnswer s = true →
    ∃ m : Memory, m.wf = true ∧
      (∀ a, m.read a = if req - s.cfg.resetLen ≤ a ∧ a < req then some 0 else none) ∧
      exec (.ensure req) s = .next { s with
        bufSize := req
        buf := m
        allocCount := s.allocCount + 1
        status := .ok
        resp := some { code := .ok, value := some req, symbols := none }
        cmd := none
        phase := .idle
        events := s.events ++ [.alloc s.bufSize req, .resp { code := .ok, value := some req, symbols := none }]
        env := { s.env with allocs := s.env.allocs.tail, drawn := s.env.drawn + 1 } }

/-- R79: ENSURE 0 with an allocation owned releases it; it cannot fail and counts as one reallocation. That no cell then
holds a value is the model's reading (log 7). -/
def Obligations.EnsureZeroReleases : Prop :=
  ∀ s : State, Accepting s → s.bufSize ≠ 0 →
    exec (.ensure 0) s = .next { s with
      bufSize := 0
      buf := []
      allocCount := s.allocCount + 1
      status := .ok
      resp := some { code := .ok, value := some 0, symbols := none }
      cmd := none
      phase := .idle
      events := s.events ++ [.alloc s.bufSize 0, .resp { code := .ok, value := some 0, symbols := none }] }

/-- R77: whenever `ensureCapacity` fails, only its event is added and, where it was asked, the Allocator has answered. -/
def Obligations.FailedAllocationRetainsTheState : Prop :=
  ∀ (s : State) (req : Nat), (ensureCapacity req s).1 ≠ .ok →
    (ensureCapacity req s).1 = .allocationFailure ∧
    ((ensureCapacity req s).2 = { s with events := s.events ++ [.allocFail s.bufSize req] } ∨
      (ensureCapacity req s).2 = { s with
        events := s.events ++ [.allocFail s.bufSize req]
        env := { s.env with allocs := s.env.allocs.tail, drawn := s.env.drawn + 1 } })

/-- R77, R78: where the size is beyond the capacity, or the Allocator answers fail, ENSURE keeps the buffer whole. -/
def Obligations.EnsureFailureRetainsTheBuffer : Prop :=
  ∀ (s : State) (req : Nat), Accepting s → req ≠ s.bufSize → 0 < req →
    (s.cfg.bufCapacity < req ∨ allocAnswer s = false) →
    exec (.ensure req) s = .next { s with
      status := .allocationFailure
      resp := some { code := .allocationFailure, value := some s.bufSize, symbols := none }
      cmd := none
      phase := .idle
      events := s.events ++ [.allocFail s.bufSize req,
        .resp { code := .allocationFailure, value := some s.bufSize, symbols := none }]
      env := if s.cfg.bufCapacity < req then s.env
        else { s.env with allocs := s.env.allocs.tail, drawn := s.env.drawn + 1 } }

/-! ## The lifecycle commands (43_controller.md) -/

/-- R93: INIT in UNINIT takes the Bus's answer: the handle and READY, or BUS_UNAVAILABLE with nothing changed. -/
def Obligations.InitTakesTheHandle : Prop :=
  ∀ s : State, Live s → s.ctrlState = .uninit →
    (openAnswer s = true → exec .init s = .next { s with
      ctrlState := .ready
      busHeld := true
      status := .ok
      resp := some { code := .ok, value := none, symbols := none }
      cmd := none
      phase := .idle
      events := s.events ++ [.busOpen true, .resp { code := .ok, value := none, symbols := none }]
      env := { s.env with opens := s.env.opens.tail, drawn := s.env.drawn + 1 } }) ∧
    (openAnswer s = false → exec .init s = .next { s with
      status := .busUnavailable
      resp := some { code := .busUnavailable, value := none, symbols := none }
      cmd := none
      phase := .idle
      events := s.events ++ [.busOpen false, .resp { code := .busUnavailable, value := none, symbols := none }]
      env := { s.env with opens := s.env.opens.tail, drawn := s.env.drawn + 1 } })

/-- R94: MAXRATE answers 400 in UNINIT and in READY, under every configuration. -/
def Obligations.MaxrateAnswers400 : Prop :=
  ∀ s : State, Accepting s →
    exec .maxrate s = .next { s with
      status := .ok
      resp := some { code := .ok, value := some 400, symbols := none }
      cmd := none
      phase := .idle
      events := s.events ++ [.resp { code := .ok, value := some 400, symbols := none }] }

/-- R96: DRIVE in READY is accepted. -/
def Obligations.DriveIsAccepted : Prop :=
  ∀ s : State, Live s → s.ctrlState = .ready →
    exec .drive s = .next { s with cmd := some .drive, ctrlState := .transmitting, phase := .dSize }

/-- R84: SEND in READY of cells that all hold a byte is accepted. -/
def Obligations.SendIsAccepted : Prop :=
  ∀ (s : State) (len : Nat), Live s → s.ctrlState = .ready → len ≤ s.bufSize → DefinedBelow s len →
    exec (.send len) s = .next { s with
      cmd := some (.send len), ctrlState := .transmitting, sendLen := some len, phase := .sBegin }

/-- R84 checks 2 and 3: BUFFER_OVERRUN before UNDEFINED_READ. -/
def Obligations.SendOperandFaults : Prop :=
  ∀ (s : State) (len : Nat), Live s → s.ctrlState = .ready →
    (s.bufSize < len → exec (.send len) s = .next { s with
      fault := some .bufferOverrun, events := s.events ++ [.fault .bufferOverrun] }) ∧
    (len ≤ s.bufSize → (∃ a, a < len ∧ s.buf.read a = none) → exec (.send len) s = .next { s with
      fault := some .undefinedRead, events := s.events ++ [.fault .undefinedRead] })

/-- R105, R80: TEARDOWN in UNINIT and in READY releases the buffer and the handle. -/
def Obligations.TeardownReleasesEverything : Prop :=
  ∀ s : State, Accepting s →
    exec .teardown s = .next { s with
      ctrlState := .tornDown
      busHeld := false
      bufSize := 0
      buf := []
      status := .ok
      resp := some { code := .ok, value := none, symbols := none }
      cmd := none
      phase := .idle
      events := s.events ++ (if s.bufSize = 0 then [] else [.release s.bufSize]) ++
        [.resp { code := .ok, value := none, symbols := none }] }

/-! ## The phases of DRIVE (43_controller.md) -/

/-- R97: phase D_SIZE latches the pixel count and the exact required size. -/
def Obligations.SizePhaseComputesTheFrame : Prop :=
  ∀ s : State, s.phase = .dSize →
    microStep s = .next { s with
      n := some (sizeAnswer s)
      req := some (24 * sizeAnswer s + s.cfg.resetLen)
      phase := .dAlloc
      events := s.events ++ [.srcSize (sizeAnswer s)]
      env := { s.env with sizes := s.env.sizes.tail, drawn := s.env.drawn + 1 } }

/-- R98 with R75 and R82 (a): a frame of the present size reallocates nothing. -/
def Obligations.AllocPhaseKeepsAnEqualFrame : Prop :=
  ∀ (s : State) (n : Nat), s.phase = .dAlloc → s.n = some n → s.req = some s.bufSize →
    microStep s = .next { s with i := some 0, phase := if n = 0 then .dCheck else .dPixel }

/-- R98 with R74, R76 and R82 (b): a frame of another size takes exactly one reallocation and a zeroed tail. -/
def Obligations.AllocPhaseReplacesTheFrame : Prop :=
  ∀ (s : State) (n req : Nat), s.phase = .dAlloc → s.n = some n → s.req = some req → req ≠ s.bufSize →
    (req = 0 ∨ (req ≤ s.cfg.bufCapacity ∧ allocAnswer s = true)) →
    ∃ m : Memory, m.wf = true ∧
      (∀ a, m.read a = if req - s.cfg.resetLen ≤ a ∧ a < req then some 0 else none) ∧
      microStep s = .next { s with
        bufSize := req
        buf := m
        allocCount := s.allocCount + 1
        i := some 0
        phase := if n = 0 then .dCheck else .dPixel
        events := s.events ++ [.alloc s.bufSize req]
        env := if req = 0 then s.env
          else { s.env with allocs := s.env.allocs.tail, drawn := s.env.drawn + 1 } }

/-- R98, R101: a frame that cannot be allocated ends the cycle with the old buffer kept. -/
def Obligations.AllocPhaseFailureEndsTheCycle : Prop :=
  ∀ (s : State) (req : Nat), s.phase = .dAlloc → s.ctrlState = .transmitting → s.req = some req →
    req ≠ s.bufSize → 0 < req → (s.cfg.bufCapacity < req ∨ allocAnswer s = false) →
    microStep s = .next { s with
      ctrlState := .ready
      status := .allocationFailure
      resp := some { code := .allocationFailure, value := some s.bufSize, symbols := none }
      cmd := none
      phase := .idle
      events := s.events ++ [.allocFail s.bufSize req,
        .resp { code := .allocationFailure, value := some s.bufSize, symbols := none }]
      env := if s.cfg.bufCapacity < req then s.env
        else { s.env with allocs := s.env.allocs.tail, drawn := s.env.drawn + 1 } }

/-- R99, R72, R43: one pixel of D_PIXEL: its three bytes, its 24 slots and no other cell, its events in order, and the
next pixel or the check. -/
def Obligations.PixelPhaseEncodesOnePixel : Prop :=
  ∀ (s : State) (n i : Nat), s.phase = .dPixel → s.n = some n → s.i = some i → hasNextAnswer s = true →
    24 * (i + 1) ≤ s.bufSize - s.cfg.resetLen →
    ∃ (b0 b1 b2 : Byte) (m : Memory),
      (∀ x y z rest, s.env.scaled = x :: y :: z :: rest → b0 = x ∧ b1 = y ∧ b2 = z) ∧
      (∀ k, k < 8 →
        m.read (24 * i + k) = some (if b0.getLsbD (7 - k) then s.cfg.onePattern else s.cfg.zeroPattern) ∧
        m.read (24 * i + 8 + k) = some (if b1.getLsbD (7 - k) then s.cfg.onePattern else s.cfg.zeroPattern) ∧
        m.read (24 * i + 16 + k) = some (if b2.getLsbD (7 - k) then s.cfg.onePattern else s.cfg.zeroPattern)) ∧
      (∀ a, a < 24 * i ∨ 24 * i + 24 ≤ a → m.read a = s.buf.read a) ∧
      microStep s = .next { s with
        buf := m
        i := some (i + 1)
        phase := if i + 1 = n then .dCheck else .dPixel
        events := s.events ++ [.srcHasNext true, .srcByte 0 b0, .srcByte 1 b1, .srcByte 2 b2, .srcAdvance, .srcDither]
        env := { s.env with
          nexts := s.env.nexts.tail, scaled := s.env.scaled.drop 3, drawn := s.env.drawn + 4 } }

/-- R99, R100, R101: a source with fewer pixels than `size()`, or with more, ends the cycle, and nothing is sent. -/
def Obligations.StreamMismatchEndsTheCycle : Prop :=
  ∀ (s : State) (h : Bool), s.ctrlState = .transmitting → hasNextAnswer s = h →
    (s.phase = .dPixel ∧ h = false ∨ s.phase = .dCheck ∧ h = true) →
    microStep s = .next { s with
      ctrlState := .ready
      status := .streamLengthMismatch
      resp := some { code := .streamLengthMismatch, value := some s.bufSize, symbols := none }
      cmd := none
      phase := .idle
      events := s.events ++ [.srcHasNext h,
        .resp { code := .streamLengthMismatch, value := some s.bufSize, symbols := none }]
      env := { s.env with nexts := s.env.nexts.tail, drawn := s.env.drawn + 1 } }

/-- R100: an exhausted source starts the send of the whole buffer. -/
def Obligations.CheckPhaseStartsTheSend : Prop :=
  ∀ s : State, s.phase = .dCheck → hasNextAnswer s = false →
    microStep s = .next { s with
      sendLen := some s.bufSize
      phase := .sBegin
      events := s.events ++ [.srcHasNext false]
      env := { s.env with nexts := s.env.nexts.tail, drawn := s.env.drawn + 1 } }

/-! ## The send sequence (42_transmit.md) -/

/-- R85: S_BEGIN takes the snapshot and opens the transaction with BUS_CFG. -/
def Obligations.BeginPhaseIssuesTheSnapshot : Prop :=
  ∀ (s : State) (len : Nat), s.phase = .sBegin → s.sendLen = some len → DefinedBelow s len →
    beginAnswer s = true →
    ∃ bytes : List Byte, bytes.length = len ∧ (∀ a, a < len → bytes[a]? = s.buf.read a) ∧
      microStep s = .next { s with
        begun := some true
        phase := .sWrite
        events := s.events ++ [.busBegin { clock := s.cfg.busClockHz, bitOrder := .msbFirst, mode := 0 } true]
        env := { s.env with begins := s.env.begins.tail, drawn := s.env.drawn + 1, busReq := some bytes } }

/-- R85: a transaction that cannot be opened ends the command with BUS_UNAVAILABLE: no write, no end. -/
def Obligations.BeginPhaseFailureEndsTheCommand : Prop :=
  ∀ (s : State) (len v : Nat), s.phase = .sBegin → s.ctrlState = .transmitting → s.sendLen = some len →
    DefinedBelow s len → beginAnswer s = false →
    (s.cmd = some .drive ∧ v = s.bufSize ∨ (∃ l, s.cmd = some (.send l)) ∧ v = len) →
    microStep s = .next { s with
      begun := some false
      ctrlState := .ready
      status := .busUnavailable
      resp := some { code := .busUnavailable, value := some v, symbols := none }
      cmd := none
      phase := .idle
      events := s.events ++ [.busBegin { clock := s.cfg.busClockHz, bitOrder := .msbFirst, mode := 0 } false,
        .resp { code := .busUnavailable, value := some v, symbols := none }]
      env := { s.env with begins := s.env.begins.tail, drawn := s.env.drawn + 1 } }

/-- R86, R88, R112: in S_WRITE the block holds in every step in which the Bus does not complete the write; one in which
it does goes on to S_END with the emitted length at most the snapshot's. -/
def Obligations.WritePhaseWaitsForTheBus : Prop :=
  ∀ (s : State) (bytes : List Byte), s.phase = .sWrite → s.env.busReq = some bytes →
    (writeAnswer s = none → microStep s = .next { s with
      env := { s.env with writes := s.env.writes.tail, drawn := s.env.drawn + 1 } }) ∧
    (∀ e ok, writeAnswer s = some (e, ok) → ∃ emitted, emitted ≤ bytes.length ∧
      (e ≤ bytes.length → emitted = e) ∧
      microStep s = .next { s with
        wrOk := some ok
        phase := .sEnd
        events := s.events ++ [.busWrite bytes emitted ok]
        env := { s.env with
          writes := s.env.writes.tail, drawn := s.env.drawn + 1, busReq := none } })

/-- R87: S_END closes the transaction whatever the write's outcome, and answers OK or BUS_UNAVAILABLE. -/
def Obligations.EndPhaseClosesTheTransaction : Prop :=
  ∀ (s : State) (len v : Nat) (ok : Bool), s.phase = .sEnd → s.ctrlState = .transmitting → s.sendLen = some len →
    s.wrOk = some ok →
    (s.cmd = some .drive ∧ v = s.bufSize ∨ (∃ l, s.cmd = some (.send l)) ∧ v = len) →
    microStep s = .next { s with
      ctrlState := .ready
      status := if ok then .ok else .busUnavailable
      resp := some { code := if ok then .ok else .busUnavailable, value := some v, symbols := none }
      cmd := none
      phase := .idle
      events := s.events ++ [.busEnd,
        .resp { code := if ok then .ok else .busUnavailable, value := some v, symbols := none }] }

/-- R91, R51, R52: no step of a send, whether it fails or not, changes the handle, the buffer, its size or the count, and
one that ends the command leaves READY. -/
def Obligations.SendKeepsHandleAndBuffer : Prop :=
  ∀ s t : State, s.phase = .sBegin ∨ s.phase = .sWrite ∨ s.phase = .sEnd → s.ctrlState = .transmitting →
    microStep s = .next t →
    t.busHeld = s.busHeld ∧ t.bufSize = s.bufSize ∧ t.buf = s.buf ∧ t.allocCount = s.allocCount ∧
    (t.phase = .idle → t.ctrlState = .ready)

/-- R45, R89: a write of which `e` bytes are emitted puts its first `e` bytes on the line in ascending order, each MSB
first, and nothing else; any other event puts nothing on it. -/
def Obligations.LineCarriesTheBytesMsbFirst : Prop :=
  (∀ (bytes : List Byte) (e : Nat), e ≤ bytes.length →
    (lineBits bytes e).length = 8 * e ∧
    ∀ a j, a < e → j < 8 → (lineBits bytes e)[8 * a + j]? = bytes[a]?.map fun b => b.getLsbD (7 - j)) ∧
  ∀ (s t : State) (event : Event), t.events = s.events ++ [event] →
    (∀ bytes e ok, event = .busWrite bytes e ok → line t = line s ++ lineBits bytes e) ∧
    ((∀ bytes e ok, event ≠ .busWrite bytes e ok) → line t = line s)

/-- R45, R86, R89: a step puts bits on the line exactly where the Bus completes a pending write in it, and then those of
the bytes emitted (how their number is bounded: log 5). -/
def Obligations.OnlyACompletedWriteReachesTheLine : Prop :=
  ∀ s t : State, step s = .next t →
    (∀ bytes e ok, hostMove s = none → s.phase = .sWrite → s.env.busReq = some bytes →
      writeAnswer s = some (e, ok) → line t = line s ++ lineBits bytes (min e bytes.length)) ∧
    (hostMove s ≠ none ∨ s.phase ≠ .sWrite ∨ s.env.busReq = none ∨ writeAnswer s = none → line t = line s)

/-! ## What reset leaves, and the invariants every step keeps -/

/-- R124, R22: the reset column, under every configuration. -/
def Obligations.ResetColumn : Prop :=
  ∀ c : Config,
    (State.instantiate c).ctrlState = .uninit ∧ (State.instantiate c).busHeld = false ∧
    (State.instantiate c).bufSize = 0 ∧ (∀ a, (State.instantiate c).buf.read a = none) ∧
    (State.instantiate c).status = .ok ∧ (State.instantiate c).fault = none ∧
    (State.instantiate c).resp = none ∧ (State.instantiate c).cmd = none ∧
    (State.instantiate c).phase = .idle ∧ (State.instantiate c).n = none ∧
    (State.instantiate c).req = none ∧ (State.instantiate c).i = none ∧
    (State.instantiate c).sendLen = none ∧ (State.instantiate c).begun = none ∧
    (State.instantiate c).wrOk = none ∧ (State.instantiate c).allocCount = 0 ∧
    (State.instantiate c).events = [] ∧
    ((State.instantiate c).refused = true ↔ c.onePattern = c.zeroPattern ∨ c.flip = true)

/-- Every invariant below holds right after reset, under every configuration. -/
def Obligations.ResetMeetsTheInvariants : Prop :=
  ∀ c : Config,
    Lifecycle (State.instantiate c) ∧ Storage (State.instantiate c) ∧ Tail (State.instantiate c) ∧
    Sequenced (State.instantiate c) ∧ Disciplined (State.instantiate c) ∧ Owned (State.instantiate c) ∧
    Responded (State.instantiate c) ∧ FixedBusCfg (State.instantiate c)

/-- R25, R26, R32, R37: the lifecycle invariants are kept by every step. -/
def Obligations.StepKeepsTheLifecycle : Prop :=
  ∀ s t : State, Lifecycle s → step s = .next t → Lifecycle t

/-- R35, R27, R68: every step keeps the reset tail zero, the storage canonical, nothing outside the allocation, and
nothing but symbols in the encoded region. The canonical form is the model's (log 8), and that a reallocation to size 0
leaves nothing outside is its reading of R27 and R57 (log 7). -/
def Obligations.StepKeepsTailAndStorage : Prop :=
  ∀ s t : State, Tail s ∧ Storage s → step s = .next t → Tail t ∧ Storage t

/-- R33, R100, R52: every step leaves the next phase what it reads: its registers written, the frame defined as far as
it must be, and in S_WRITE a snapshot equal to the buffer. -/
def Obligations.StepKeepsTheSequence : Prop :=
  ∀ s t : State, Tail s ∧ Sequenced s → step s = .next t → Sequenced t

/-- R90: the scoped discipline of bus transactions is kept by every step. -/
def Obligations.StepKeepsTheBusDiscipline : Prop :=
  ∀ s t : State, Lifecycle s ∧ Disciplined s → step s = .next t → Disciplined t

/-- R36, R34: the block owns at most one allocation, the one `buf_size` tells, and `alloc_count` counts the
reallocations. -/
def Obligations.StepKeepsOwnership : Prop :=
  ∀ s t : State, Owned s → step s = .next t → Owned t

/-- R28, R30, R83: `status` is the code of the last response, and every transaction is opened with BUS_CFG. -/
def Obligations.StepKeepsResponseAndBusCfg : Prop :=
  ∀ s t : State, Responded s ∧ FixedBusCfg s → step s = .next t → Responded t ∧ FixedBusCfg t

/-! ## Rules about the whole machine -/

/-- R37, R39: no step changes the configuration or `refused`, and the history only grows. -/
def Obligations.StepOnlyAddsToTheHistory : Prop :=
  ∀ s t : State, step s = .next t →
    t.cfg = s.cfg ∧ t.refused = s.refused ∧ ∃ new, t.events = s.events ++ new

/-- R24: only the listed lifecycle transitions exist. -/
def Obligations.OnlyTheListedTransitions : Prop :=
  ∀ s t : State, Lifecycle s → step s = .next t → lifecycleMove s.ctrlState t.ctrlState

/-- R25, R91: only INIT sets the bus handle, only TEARDOWN clears it. -/
def Obligations.OnlyInitAndTeardownMoveTheHandle : Prop :=
  ∀ s t : State, step s = .next t → t.busHeld ≠ s.busHeld →
    ∃ w, hostMove s = some w ∧
      (decode w = .command .init ∧ t.busHeld = true ∨ decode w = .command .teardown ∧ t.busHeld = false)

/-- R26, R41, R50, R51: who writes the buffer. The size moves only by ENSURE, TEARDOWN and D_ALLOC; a step of D_PIXEL
writes only the 24 slots of its pixel; every other step leaves every cell as it was. -/
def Obligations.BufferFrame : Prop :=
  ∀ s t : State, step s = .next t →
    (∃ w req, hostMove s = some w ∧ decode w = .command (.ensure req)) ∨
    (∃ w, hostMove s = some w ∧ decode w = .command .teardown) ∨
    (hostMove s = none ∧ s.phase = .dAlloc) ∨
    (t.bufSize = s.bufSize ∧ t.allocCount = s.allocCount ∧
      ∀ a, t.buf.read a = s.buf.read a ∨
        (hostMove s = none ∧ s.phase = .dPixel ∧ slot (regI s) 0 0 ≤ a ∧ a ≤ slot (regI s) 2 7))

/-- R95: the PixelSource is asked only in a phase of a DRIVE cycle, with the Host silent: only such a step adds an event
of the PixelSource to the history, or takes one of its answers. -/
def Obligations.SourceIsAskedOnlyInADriveCycle : Prop :=
  ∀ s t : State, step s = .next t →
    (t.events.countP Event.isSource ≠ s.events.countP Event.isSource →
      hostMove s = none ∧ (s.phase = .dSize ∨ s.phase = .dPixel ∨ s.phase = .dCheck)) ∧
    (t.env.sizes ≠ s.env.sizes → hostMove s = none ∧ s.phase = .dSize) ∧
    (t.env.nexts ≠ s.env.nexts → hostMove s = none ∧ (s.phase = .dPixel ∨ s.phase = .dCheck)) ∧
    (t.env.scaled ≠ s.env.scaled → hostMove s = none ∧ s.phase = .dPixel)

/-- R110, R100: faults are raised at acceptance only; in a state the sequence invariant describes, a step with the Host
silent answers a next state without a fault, so no send reads an `Undef` cell and no pixel leaves its region. -/
def Obligations.SilentStepNeverFaults : Prop :=
  ∀ s : State, Live s → Sequenced s → hostMove s = none → ∃ t, step s = .next t ∧ t.fault = none

/-- R28, R34, R39: no step reads `status`, `alloc_count` or the history: two states that differ only in them step
alike. -/
def Obligations.BookkeepingIsNeverRead : Prop :=
  ∀ s s' : State, unread s = unread s' → viewOf unread (step s) = viewOf unread (step s')

/-- R102 (and with no pixels R103): a DRIVE whose source is consistent, with the Allocator, if it is asked, and the Bus
answering ok, leaves the frame, writes exactly it to the Bus, and answers OK. A drawn length beyond the frame is cut to it
(log 5). -/
def Obligations.DriveLeavesAndSendsTheFrame : Prop :=
  ∀ (s : State) (pixels : List (Byte × Byte × Byte)) (hosts : List (Option Word)) (sizes : List Nat)
    (nexts begins : List Bool) (scaled : List Byte) (writes : List (Option (Nat × Bool))) (e : Nat),
    let size := 24 * pixels.length + s.cfg.resetLen
    Live s → s.ctrlState = .ready → Tail s → size ≤ s.cfg.bufCapacity →
    s.env.host = some 0x00000005 :: (List.replicate (pixels.length + 6) none ++ hosts) →
    s.env.sizes = pixels.length :: sizes →
    s.env.nexts = List.replicate pixels.length true ++ false :: nexts →
    s.env.scaled = scaledBytes pixels ++ scaled →
    (size = s.bufSize ∨ size = 0 ∨ ∃ allocs, s.env.allocs = true :: allocs) →
    s.env.begins = true :: begins → s.env.writes = some (e, true) :: writes →
    ∃ t bytes old, steps (pixels.length + 7) s = .next t ∧
      t.ctrlState = .ready ∧ t.phase = .idle ∧ t.bufSize = size ∧
      (∀ p b0 b1 b2, pixels[p]? = some (b0, b1, b2) → ∀ k, k < 8 →
        t.buf.read (slot p 0 k) = some (sym s.cfg (b0.getLsbD (7 - k))) ∧
        t.buf.read (slot p 1 k) = some (sym s.cfg (b1.getLsbD (7 - k))) ∧
        t.buf.read (slot p 2 k) = some (sym s.cfg (b2.getLsbD (7 - k)))) ∧
      (∀ a, 24 * pixels.length ≤ a → a < size → t.buf.read a = some 0) ∧
      t.allocCount = s.allocCount + (if s.bufSize = size then 0 else 1) ∧
      bytes.length = size ∧ (∀ a, a < size → bytes[a]? = t.buf.read a) ∧
      t.events = s.events ++ old ++ [.busWrite bytes (min e size) true, .busEnd,
        .resp { code := .ok, value := some size, symbols := none }]
end

