-- ==== Sys2Proof/Laws/Memory.lean ====
section
/-! SUPPORT. The laws of the frame buffer's cells (20_memory.md R49, R50): a read after a write, that every operation
keeps the canonical form, and that memories in canonical form which read alike are equal. -/

namespace Sys2Proof.Machine

@[simp] theorem Memory.read_nil (a : Nat) : Memory.read [] a = none := rfl

theorem Memory.read_cons (k : Nat) (b : Byte) (m : Memory) (a : Nat) :
    Memory.read ((k, b) :: m) a = if k = a then some b else Memory.read m a := rfl

/-- A read after a write gives the byte written there, and every other cell as before. -/
@[simp] theorem Memory.read_write (m : Memory) (a : Nat) (v : Byte) (x : Nat) :
    (Memory.write m a v).read x = if x = a then some v else m.read x := by
  induction m with
  | nil => simp [Memory.write, Memory.read, eq_comm]
  | cons c m ih =>
    obtain ⟨k, b⟩ := c
    simp only [Memory.write]
    split
    · simp [Memory.read, eq_comm]
    · split
      · subst_vars
        by_cases h : x = k
        · simp [Memory.read, h]
        · simp [Memory.read, h, Ne.symm h]
      · by_cases h : k = x
        · subst h; simp [Memory.read, Ne.symm ‹_›]
        · simp [Memory.read, h, ih]

/-- Bytes written at ascending addresses are read back there, and every other cell is as before. -/
theorem Memory.read_writeBytes (vs : List Byte) : ∀ (m : Memory) (a x : Nat),
    (Memory.writeBytes m a vs).read x = if a ≤ x ∧ x < a + vs.length then vs[x - a]? else m.read x := by
  induction vs with
  | nil => intro m a x; rw [Memory.writeBytes, if_neg (by simp only [List.length_nil]; omega)]
  | cons v vs ih =>
    intro m a x
    rw [Memory.writeBytes, ih, Memory.read_write]
    by_cases h : x = a
    · subst h
      rw [if_neg (by omega), if_pos rfl, if_pos (by simp only [List.length_cons]; omega), Nat.sub_self,
        List.getElem?_cons_zero]
    · by_cases h1 : a + 1 ≤ x ∧ x < a + 1 + vs.length
      · have h2 : a ≤ x ∧ x < a + (v :: vs).length := by simp only [List.length_cons]; omega
        rw [if_pos h1, if_pos h2, show x - a = (x - (a + 1)) + 1 by omega, List.getElem?_cons_succ]
      · have h2 : ¬(a ≤ x ∧ x < a + (v :: vs).length) := by simp only [List.length_cons]; omega
        rw [if_neg h1, if_neg h2, if_neg h]

/-- Exactly the cells of the range read 0. -/
theorem Memory.read_zeros (len : Nat) : ∀ (start x : Nat),
    (Memory.zeros start len).read x = if start ≤ x ∧ x < start + len then some 0 else none := by
  induction len with
  | zero => intro start x; simp [Memory.zeros]
  | succ len ih =>
    intro start x
    have h : Memory.zeros start (len + 1) = (start, 0) :: Memory.zeros (start + 1) len := by
      simp [Memory.zeros, List.range'_succ]
    rw [h, Memory.read_cons, ih]
    by_cases hx : start = x
    · subst hx; simp
    · rw [if_neg hx]
      by_cases h1 : start + 1 ≤ x ∧ x < start + 1 + len
      · rw [if_pos h1, if_pos (by omega)]
      · rw [if_neg h1, if_neg (by omega)]

/-- The snapshot exists exactly when every cell of the range has a value. -/
theorem Memory.readBytes_isSome (m : Memory) (len : Nat) : ∀ start,
    (m.readBytes start len).isSome ↔ ∀ a, start ≤ a → a < start + len → (m.read a).isSome := by
  induction len with
  | zero => intro start; simp [Memory.readBytes]; omega
  | succ len ih =>
    intro start
    rw [Memory.readBytes]
    cases h : m.read start with
    | none =>
      simp only [Option.isSome_none, Bool.false_eq_true, false_iff]
      intro hall
      have := hall start (Nat.le_refl _) (by omega)
      simp [h] at this
    | some b =>
      simp only [Option.isSome_map, ih]
      constructor
      · intro hall a h1 h2
        by_cases ha : a = start
        · subst ha; simp [h]
        · exact hall a (by omega) (by omega)
      · intro hall a h1 h2
        exact hall a (by omega) (by omega)

/-- The snapshot has the length asked for, and its bytes are the cells in ascending order (20_memory.md R45). -/
theorem Memory.readBytes_spec (m : Memory) (len : Nat) : ∀ start bytes, m.readBytes start len = some bytes →
    bytes.length = len ∧ ∀ k, k < len → m.read (start + k) = bytes[k]? := by
  induction len with
  | zero => intro start bytes h; simp [Memory.readBytes] at h; subst h; simp
  | succ len ih =>
    intro start bytes h
    rw [Memory.readBytes] at h
    cases hr : m.read start with
    | none => simp [hr] at h
    | some b =>
      cases hs : m.readBytes (start + 1) len with
      | none => simp [hr, hs] at h
      | some rest =>
        simp only [hr, hs, Option.map_some, Option.some.injEq] at h
        subst h
        obtain ⟨hl, hk⟩ := ih (start + 1) rest hs
        refine ⟨by simp [hl], fun k hlt => ?_⟩
        cases k with
        | zero => simp [hr]
        | succ k =>
          rw [List.getElem?_cons_succ, ← hk k (by omega)]
          congr 1; omega

/-- A memory's addresses all lie above `k`. -/
theorem Memory.wf_cons (k : Nat) (b : Byte) (m : Memory) :
    Memory.wf ((k, b) :: m) = true ↔ Memory.wf m = true ∧ ∀ c ∈ m, k < c.1 := by
  induction m generalizing k b with
  | nil => simp [Memory.wf]
  | cons c m ih =>
    obtain ⟨l, v⟩ := c
    simp only [Memory.wf, Bool.and_eq_true, decide_eq_true_eq, List.mem_cons, forall_eq_or_imp]
    constructor
    · rintro ⟨h1, h2⟩
      refine ⟨h2, h1, fun c hc => Nat.lt_trans h1 (((ih l v).1 h2).2 c hc)⟩
    · rintro ⟨h2, h1, _⟩
      exact ⟨h1, h2⟩

theorem Memory.mem_write (m : Memory) (a : Nat) (v : Byte) (c : Host.Cell) (h : c ∈ Memory.write m a v) :
    c.1 = a ∨ c ∈ m := by
  induction m with
  | nil => simp [Memory.write] at h; simp [h]
  | cons d m ih =>
    obtain ⟨k, b⟩ := d
    simp only [Memory.write] at h
    split at h
    · rcases List.mem_cons.1 h with rfl | h
      · exact .inl rfl
      · exact .inr h
    · split at h
      · rcases List.mem_cons.1 h with rfl | h
        · exact .inl rfl
        · exact .inr (List.mem_cons_of_mem _ h)
      · rcases List.mem_cons.1 h with rfl | h
        · exact .inr List.mem_cons_self
        · rcases ih h with h | h
          · exact .inl h
          · exact .inr (List.mem_cons_of_mem _ h)

/-- A write keeps the canonical form. -/
theorem Memory.write_wf (m : Memory) (a : Nat) (v : Byte) (h : m.wf = true) : (Memory.write m a v).wf = true := by
  induction m with
  | nil => rfl
  | cons c m ih =>
    obtain ⟨k, b⟩ := c
    have hk := (Memory.wf_cons k b m).1 h
    simp only [Memory.write]
    split
    · rename_i hlt
      refine (Memory.wf_cons a v _).2 ⟨h, fun c hc => ?_⟩
      rcases List.mem_cons.1 hc with rfl | hc
      · exact hlt
      · exact Nat.lt_trans hlt (hk.2 c hc)
    · split
      · subst_vars
        exact (Memory.wf_cons k v m).2 hk
      · refine (Memory.wf_cons k b _).2 ⟨ih hk.1, fun c hc => ?_⟩
        rcases Memory.mem_write m a v c hc with hc | hc
        · omega
        · exact hk.2 c hc

/-- Writing a list of bytes keeps the canonical form. -/
theorem Memory.writeBytes_wf (vs : List Byte) : ∀ (m : Memory) (a : Nat), m.wf = true →
    (Memory.writeBytes m a vs).wf = true := by
  induction vs with
  | nil => intro m a h; exact h
  | cons v vs ih => intro m a h; exact ih _ _ (Memory.write_wf m a v h)

/-- A fresh tail is in canonical form. -/
theorem Memory.zeros_wf (len : Nat) : ∀ start, (Memory.zeros start len).wf = true := by
  induction len with
  | zero => intro start; rfl
  | succ len ih =>
    intro start
    have h : Memory.zeros start (len + 1) = (start, 0) :: Memory.zeros (start + 1) len := by
      simp [Memory.zeros, List.range'_succ]
    rw [h]
    refine (Memory.wf_cons _ _ _).2 ⟨ih _, fun c hc => ?_⟩
    simp only [Memory.zeros, List.mem_map, List.mem_range'_1] at hc
    obtain ⟨x, hx, rfl⟩ := hc
    show start < x
    omega

/-- The memory after reset is in canonical form. -/
theorem Memory.reset_wf : State.reset.buf.wf = true := rfl

/-- No cell below the first listed address has a value. -/
theorem Memory.read_eq_none_of_lt (m : Memory) (a : Nat) (h : ∀ c ∈ m, a < c.1) : m.read a = none := by
  induction m with
  | nil => rfl
  | cons c m ih =>
    obtain ⟨k, b⟩ := c
    have hk : a < k := h (k, b) List.mem_cons_self
    rw [Memory.read_cons, if_neg (by omega)]
    exact ih fun c hc => h c (List.mem_cons_of_mem _ hc)

/-- Memories in canonical form that read alike are the same data. -/
theorem Memory.ext_of_wf (m : Memory) : ∀ m' : Memory, m.wf = true → m'.wf = true →
    (∀ a, m.read a = m'.read a) → m = m' := by
  induction m with
  | nil =>
    intro m' _ _ h
    cases m' with
    | nil => rfl
    | cons c m' =>
      obtain ⟨k, b⟩ := c
      have := h k
      simp [Memory.read_cons] at this
  | cons c m ih =>
    obtain ⟨k, b⟩ := c
    intro m' hw hw' h
    cases m' with
    | nil => have := h k; simp [Memory.read_cons] at this
    | cons c' m' =>
      obtain ⟨k', b'⟩ := c'
      have hk := (Memory.wf_cons k b m).1 hw
      have hk' := (Memory.wf_cons k' b' m').1 hw'
      have hkk : k = k' := by
        rcases Nat.lt_trichotomy k k' with hlt | heq | hlt
        · have h1 := h k
          rw [Memory.read_cons, if_pos rfl, Memory.read_cons, if_neg (by omega),
            Memory.read_eq_none_of_lt m' k fun c hc => Nat.lt_trans hlt (hk'.2 c hc)] at h1
          exact absurd h1 (by simp)
        · exact heq
        · have h1 := h k'
          rw [Memory.read_cons, if_neg (by omega), Memory.read_cons, if_pos rfl,
            Memory.read_eq_none_of_lt m k' fun c hc => Nat.lt_trans hlt (hk.2 c hc)] at h1
          exact absurd h1 (by simp)
      subst hkk
      have hb : b = b' := by
        have h1 := h k
        simpa [Memory.read_cons] using h1
      subst hb
      have hm : m = m' := ih m' hk.1 hk'.1 fun a => by
        by_cases ha : k = a
        · subst ha
          rw [Memory.read_eq_none_of_lt m k hk.2, Memory.read_eq_none_of_lt m' k hk'.2]
        · have h1 := h a
          rwa [Memory.read_cons, if_neg ha, Memory.read_cons, if_neg ha] at h1
      rw [hm]

end Sys2Proof.Machine
end

