-- ==== Sys2Proof/Laws/State.lean ====
section
/-! SUPPORT. One lemma per field per update of the state: what each operation that writes the state writes, and that it
writes nothing else. Later proofs rewrite with these and unfold no record update. -/

namespace Sys2Proof.Machine

/-! ### `emit` -/

@[simp] theorem emit_cfg (e : Event) (s : State) : (emit e s).cfg = s.cfg := rfl
@[simp] theorem emit_ctrlState (e : Event) (s : State) : (emit e s).ctrlState = s.ctrlState := rfl
@[simp] theorem emit_busHeld (e : Event) (s : State) : (emit e s).busHeld = s.busHeld := rfl
@[simp] theorem emit_bufSize (e : Event) (s : State) : (emit e s).bufSize = s.bufSize := rfl
@[simp] theorem emit_buf (e : Event) (s : State) : (emit e s).buf = s.buf := rfl
@[simp] theorem emit_status (e : Event) (s : State) : (emit e s).status = s.status := rfl
@[simp] theorem emit_fault (e : Event) (s : State) : (emit e s).fault = s.fault := rfl
@[simp] theorem emit_resp (e : Event) (s : State) : (emit e s).resp = s.resp := rfl
@[simp] theorem emit_cmd (e : Event) (s : State) : (emit e s).cmd = s.cmd := rfl
@[simp] theorem emit_phase (e : Event) (s : State) : (emit e s).phase = s.phase := rfl
@[simp] theorem emit_n (e : Event) (s : State) : (emit e s).n = s.n := rfl
@[simp] theorem emit_req (e : Event) (s : State) : (emit e s).req = s.req := rfl
@[simp] theorem emit_i (e : Event) (s : State) : (emit e s).i = s.i := rfl
@[simp] theorem emit_sendLen (e : Event) (s : State) : (emit e s).sendLen = s.sendLen := rfl
@[simp] theorem emit_begun (e : Event) (s : State) : (emit e s).begun = s.begun := rfl
@[simp] theorem emit_wrOk (e : Event) (s : State) : (emit e s).wrOk = s.wrOk := rfl
@[simp] theorem emit_allocCount (e : Event) (s : State) : (emit e s).allocCount = s.allocCount := rfl
@[simp] theorem emit_refused (e : Event) (s : State) : (emit e s).refused = s.refused := rfl
@[simp] theorem emit_events (e : Event) (s : State) : (emit e s).events = s.events ++ [e] := rfl
@[simp] theorem emit_env (e : Event) (s : State) : (emit e s).env = s.env := rfl

/-! ### `withEnv` -/

@[simp] theorem withEnv_cfg (e : Env) (s : State) : (withEnv e s).cfg = s.cfg := rfl
@[simp] theorem withEnv_ctrlState (e : Env) (s : State) : (withEnv e s).ctrlState = s.ctrlState := rfl
@[simp] theorem withEnv_busHeld (e : Env) (s : State) : (withEnv e s).busHeld = s.busHeld := rfl
@[simp] theorem withEnv_bufSize (e : Env) (s : State) : (withEnv e s).bufSize = s.bufSize := rfl
@[simp] theorem withEnv_buf (e : Env) (s : State) : (withEnv e s).buf = s.buf := rfl
@[simp] theorem withEnv_status (e : Env) (s : State) : (withEnv e s).status = s.status := rfl
@[simp] theorem withEnv_fault (e : Env) (s : State) : (withEnv e s).fault = s.fault := rfl
@[simp] theorem withEnv_resp (e : Env) (s : State) : (withEnv e s).resp = s.resp := rfl
@[simp] theorem withEnv_cmd (e : Env) (s : State) : (withEnv e s).cmd = s.cmd := rfl
@[simp] theorem withEnv_phase (e : Env) (s : State) : (withEnv e s).phase = s.phase := rfl
@[simp] theorem withEnv_n (e : Env) (s : State) : (withEnv e s).n = s.n := rfl
@[simp] theorem withEnv_req (e : Env) (s : State) : (withEnv e s).req = s.req := rfl
@[simp] theorem withEnv_i (e : Env) (s : State) : (withEnv e s).i = s.i := rfl
@[simp] theorem withEnv_sendLen (e : Env) (s : State) : (withEnv e s).sendLen = s.sendLen := rfl
@[simp] theorem withEnv_begun (e : Env) (s : State) : (withEnv e s).begun = s.begun := rfl
@[simp] theorem withEnv_wrOk (e : Env) (s : State) : (withEnv e s).wrOk = s.wrOk := rfl
@[simp] theorem withEnv_allocCount (e : Env) (s : State) : (withEnv e s).allocCount = s.allocCount := rfl
@[simp] theorem withEnv_refused (e : Env) (s : State) : (withEnv e s).refused = s.refused := rfl
@[simp] theorem withEnv_events (e : Env) (s : State) : (withEnv e s).events = s.events := rfl
@[simp] theorem withEnv_env (e : Env) (s : State) : (withEnv e s).env = e := rfl

/-! ### `accept` -/

@[simp] theorem accept_cfg (x : Instr) (s : State) : (accept x s).cfg = s.cfg := rfl
@[simp] theorem accept_ctrlState (x : Instr) (s : State) : (accept x s).ctrlState = s.ctrlState := rfl
@[simp] theorem accept_busHeld (x : Instr) (s : State) : (accept x s).busHeld = s.busHeld := rfl
@[simp] theorem accept_bufSize (x : Instr) (s : State) : (accept x s).bufSize = s.bufSize := rfl
@[simp] theorem accept_buf (x : Instr) (s : State) : (accept x s).buf = s.buf := rfl
@[simp] theorem accept_status (x : Instr) (s : State) : (accept x s).status = s.status := rfl
@[simp] theorem accept_fault (x : Instr) (s : State) : (accept x s).fault = s.fault := rfl
@[simp] theorem accept_resp (x : Instr) (s : State) : (accept x s).resp = s.resp := rfl
@[simp] theorem accept_cmd (x : Instr) (s : State) : (accept x s).cmd = some x := rfl
@[simp] theorem accept_phase (x : Instr) (s : State) : (accept x s).phase = s.phase := rfl
@[simp] theorem accept_n (x : Instr) (s : State) : (accept x s).n = s.n := rfl
@[simp] theorem accept_req (x : Instr) (s : State) : (accept x s).req = s.req := rfl
@[simp] theorem accept_i (x : Instr) (s : State) : (accept x s).i = s.i := rfl
@[simp] theorem accept_sendLen (x : Instr) (s : State) : (accept x s).sendLen = s.sendLen := rfl
@[simp] theorem accept_begun (x : Instr) (s : State) : (accept x s).begun = s.begun := rfl
@[simp] theorem accept_wrOk (x : Instr) (s : State) : (accept x s).wrOk = s.wrOk := rfl
@[simp] theorem accept_allocCount (x : Instr) (s : State) : (accept x s).allocCount = s.allocCount := rfl
@[simp] theorem accept_refused (x : Instr) (s : State) : (accept x s).refused = s.refused := rfl
@[simp] theorem accept_events (x : Instr) (s : State) : (accept x s).events = s.events := rfl
@[simp] theorem accept_env (x : Instr) (s : State) : (accept x s).env = s.env := rfl

/-! ### `raise` -/

@[simp] theorem raise_cfg (c : FaultCode) (s : State) : (raise c s).cfg = s.cfg := rfl
@[simp] theorem raise_ctrlState (c : FaultCode) (s : State) : (raise c s).ctrlState = s.ctrlState := rfl
@[simp] theorem raise_busHeld (c : FaultCode) (s : State) : (raise c s).busHeld = s.busHeld := rfl
@[simp] theorem raise_bufSize (c : FaultCode) (s : State) : (raise c s).bufSize = s.bufSize := rfl
@[simp] theorem raise_buf (c : FaultCode) (s : State) : (raise c s).buf = s.buf := rfl
@[simp] theorem raise_status (c : FaultCode) (s : State) : (raise c s).status = s.status := rfl
@[simp] theorem raise_fault (c : FaultCode) (s : State) : (raise c s).fault = some c := rfl
@[simp] theorem raise_resp (c : FaultCode) (s : State) : (raise c s).resp = s.resp := rfl
@[simp] theorem raise_cmd (c : FaultCode) (s : State) : (raise c s).cmd = s.cmd := rfl
@[simp] theorem raise_phase (c : FaultCode) (s : State) : (raise c s).phase = s.phase := rfl
@[simp] theorem raise_n (c : FaultCode) (s : State) : (raise c s).n = s.n := rfl
@[simp] theorem raise_req (c : FaultCode) (s : State) : (raise c s).req = s.req := rfl
@[simp] theorem raise_i (c : FaultCode) (s : State) : (raise c s).i = s.i := rfl
@[simp] theorem raise_sendLen (c : FaultCode) (s : State) : (raise c s).sendLen = s.sendLen := rfl
@[simp] theorem raise_begun (c : FaultCode) (s : State) : (raise c s).begun = s.begun := rfl
@[simp] theorem raise_wrOk (c : FaultCode) (s : State) : (raise c s).wrOk = s.wrOk := rfl
@[simp] theorem raise_allocCount (c : FaultCode) (s : State) : (raise c s).allocCount = s.allocCount := rfl
@[simp] theorem raise_refused (c : FaultCode) (s : State) : (raise c s).refused = s.refused := rfl
@[simp] theorem raise_events (c : FaultCode) (s : State) : (raise c s).events = s.events ++ [.fault c] := rfl
@[simp] theorem raise_env (c : FaultCode) (s : State) : (raise c s).env = s.env := rfl

/-! ### `finish` -/

@[simp] theorem finish_cfg (c : ResultCode) (v : Option Nat) (y : Option (List Byte)) (s : State) :
    (finish c v y s).cfg = s.cfg := rfl
@[simp] theorem finish_ctrlState (c : ResultCode) (v : Option Nat) (y : Option (List Byte)) (s : State) :
    (finish c v y s).ctrlState = if s.ctrlState = .transmitting then .ready else s.ctrlState := rfl
@[simp] theorem finish_busHeld (c : ResultCode) (v : Option Nat) (y : Option (List Byte)) (s : State) :
    (finish c v y s).busHeld = s.busHeld := rfl
@[simp] theorem finish_bufSize (c : ResultCode) (v : Option Nat) (y : Option (List Byte)) (s : State) :
    (finish c v y s).bufSize = s.bufSize := rfl
@[simp] theorem finish_buf (c : ResultCode) (v : Option Nat) (y : Option (List Byte)) (s : State) :
    (finish c v y s).buf = s.buf := rfl
@[simp] theorem finish_status (c : ResultCode) (v : Option Nat) (y : Option (List Byte)) (s : State) :
    (finish c v y s).status = c := rfl
@[simp] theorem finish_fault (c : ResultCode) (v : Option Nat) (y : Option (List Byte)) (s : State) :
    (finish c v y s).fault = s.fault := rfl
@[simp] theorem finish_resp (c : ResultCode) (v : Option Nat) (y : Option (List Byte)) (s : State) :
    (finish c v y s).resp = some { code := c, value := v, symbols := y } := rfl
@[simp] theorem finish_cmd (c : ResultCode) (v : Option Nat) (y : Option (List Byte)) (s : State) :
    (finish c v y s).cmd = none := rfl
@[simp] theorem finish_phase (c : ResultCode) (v : Option Nat) (y : Option (List Byte)) (s : State) :
    (finish c v y s).phase = .idle := rfl
@[simp] theorem finish_n (c : ResultCode) (v : Option Nat) (y : Option (List Byte)) (s : State) :
    (finish c v y s).n = s.n := rfl
@[simp] theorem finish_req (c : ResultCode) (v : Option Nat) (y : Option (List Byte)) (s : State) :
    (finish c v y s).req = s.req := rfl
@[simp] theorem finish_i (c : ResultCode) (v : Option Nat) (y : Option (List Byte)) (s : State) :
    (finish c v y s).i = s.i := rfl
@[simp] theorem finish_sendLen (c : ResultCode) (v : Option Nat) (y : Option (List Byte)) (s : State) :
    (finish c v y s).sendLen = s.sendLen := rfl
@[simp] theorem finish_begun (c : ResultCode) (v : Option Nat) (y : Option (List Byte)) (s : State) :
    (finish c v y s).begun = s.begun := rfl
@[simp] theorem finish_wrOk (c : ResultCode) (v : Option Nat) (y : Option (List Byte)) (s : State) :
    (finish c v y s).wrOk = s.wrOk := rfl
@[simp] theorem finish_allocCount (c : ResultCode) (v : Option Nat) (y : Option (List Byte)) (s : State) :
    (finish c v y s).allocCount = s.allocCount := rfl
@[simp] theorem finish_refused (c : ResultCode) (v : Option Nat) (y : Option (List Byte)) (s : State) :
    (finish c v y s).refused = s.refused := rfl
@[simp] theorem finish_events (c : ResultCode) (v : Option Nat) (y : Option (List Byte)) (s : State) :
    (finish c v y s).events = s.events ++ [.resp { code := c, value := v, symbols := y }] := rfl
@[simp] theorem finish_env (c : ResultCode) (v : Option Nat) (y : Option (List Byte)) (s : State) :
    (finish c v y s).env = s.env := rfl

/-! ### `reallocate` -/

@[simp] theorem reallocate_cfg (r : Nat) (s : State) : (reallocate r s).cfg = s.cfg := rfl
@[simp] theorem reallocate_ctrlState (r : Nat) (s : State) : (reallocate r s).ctrlState = s.ctrlState := rfl
@[simp] theorem reallocate_busHeld (r : Nat) (s : State) : (reallocate r s).busHeld = s.busHeld := rfl
@[simp] theorem reallocate_bufSize (r : Nat) (s : State) : (reallocate r s).bufSize = r := rfl
@[simp] theorem reallocate_buf (r : Nat) (s : State) :
    (reallocate r s).buf = Memory.zeros (r - s.cfg.resetLen) (min r s.cfg.resetLen) := rfl
@[simp] theorem reallocate_status (r : Nat) (s : State) : (reallocate r s).status = s.status := rfl
@[simp] theorem reallocate_fault (r : Nat) (s : State) : (reallocate r s).fault = s.fault := rfl
@[simp] theorem reallocate_resp (r : Nat) (s : State) : (reallocate r s).resp = s.resp := rfl
@[simp] theorem reallocate_cmd (r : Nat) (s : State) : (reallocate r s).cmd = s.cmd := rfl
@[simp] theorem reallocate_phase (r : Nat) (s : State) : (reallocate r s).phase = s.phase := rfl
@[simp] theorem reallocate_n (r : Nat) (s : State) : (reallocate r s).n = s.n := rfl
@[simp] theorem reallocate_req (r : Nat) (s : State) : (reallocate r s).req = s.req := rfl
@[simp] theorem reallocate_i (r : Nat) (s : State) : (reallocate r s).i = s.i := rfl
@[simp] theorem reallocate_sendLen (r : Nat) (s : State) : (reallocate r s).sendLen = s.sendLen := rfl
@[simp] theorem reallocate_begun (r : Nat) (s : State) : (reallocate r s).begun = s.begun := rfl
@[simp] theorem reallocate_wrOk (r : Nat) (s : State) : (reallocate r s).wrOk = s.wrOk := rfl
@[simp] theorem reallocate_allocCount (r : Nat) (s : State) : (reallocate r s).allocCount = s.allocCount + 1 := rfl
@[simp] theorem reallocate_refused (r : Nat) (s : State) : (reallocate r s).refused = s.refused := rfl
@[simp] theorem reallocate_events (r : Nat) (s : State) :
    (reallocate r s).events = s.events ++ [.alloc s.bufSize r] := rfl
@[simp] theorem reallocate_env (r : Nat) (s : State) : (reallocate r s).env = s.env := rfl

/-! ### `putPixel` -/

@[simp] theorem putPixel_cfg (p : Nat) (b0 b1 b2 : Byte) (s : State) :
    (putPixel p b0 b1 b2 s).cfg = s.cfg := by simp only [putPixel]
@[simp] theorem putPixel_ctrlState (p : Nat) (b0 b1 b2 : Byte) (s : State) :
    (putPixel p b0 b1 b2 s).ctrlState = s.ctrlState := by simp only [putPixel]
@[simp] theorem putPixel_busHeld (p : Nat) (b0 b1 b2 : Byte) (s : State) :
    (putPixel p b0 b1 b2 s).busHeld = s.busHeld := by simp only [putPixel]
@[simp] theorem putPixel_bufSize (p : Nat) (b0 b1 b2 : Byte) (s : State) :
    (putPixel p b0 b1 b2 s).bufSize = s.bufSize := by simp only [putPixel]
@[simp] theorem putPixel_buf (p : Nat) (b0 b1 b2 : Byte) (s : State) :
    (putPixel p b0 b1 b2 s).buf = s.buf.writeBytes (slot p 0 0) (pixelSymbols s.cfg b0 b1 b2) := by simp only [putPixel]
@[simp] theorem putPixel_status (p : Nat) (b0 b1 b2 : Byte) (s : State) :
    (putPixel p b0 b1 b2 s).status = s.status := by simp only [putPixel]
@[simp] theorem putPixel_fault (p : Nat) (b0 b1 b2 : Byte) (s : State) :
    (putPixel p b0 b1 b2 s).fault = s.fault := by simp only [putPixel]
@[simp] theorem putPixel_resp (p : Nat) (b0 b1 b2 : Byte) (s : State) :
    (putPixel p b0 b1 b2 s).resp = s.resp := by simp only [putPixel]
@[simp] theorem putPixel_cmd (p : Nat) (b0 b1 b2 : Byte) (s : State) :
    (putPixel p b0 b1 b2 s).cmd = s.cmd := by simp only [putPixel]
@[simp] theorem putPixel_phase (p : Nat) (b0 b1 b2 : Byte) (s : State) :
    (putPixel p b0 b1 b2 s).phase = s.phase := by simp only [putPixel]
@[simp] theorem putPixel_n (p : Nat) (b0 b1 b2 : Byte) (s : State) :
    (putPixel p b0 b1 b2 s).n = s.n := by simp only [putPixel]
@[simp] theorem putPixel_req (p : Nat) (b0 b1 b2 : Byte) (s : State) :
    (putPixel p b0 b1 b2 s).req = s.req := by simp only [putPixel]
@[simp] theorem putPixel_i (p : Nat) (b0 b1 b2 : Byte) (s : State) :
    (putPixel p b0 b1 b2 s).i = s.i := by simp only [putPixel]
@[simp] theorem putPixel_sendLen (p : Nat) (b0 b1 b2 : Byte) (s : State) :
    (putPixel p b0 b1 b2 s).sendLen = s.sendLen := by simp only [putPixel]
@[simp] theorem putPixel_begun (p : Nat) (b0 b1 b2 : Byte) (s : State) :
    (putPixel p b0 b1 b2 s).begun = s.begun := by simp only [putPixel]
@[simp] theorem putPixel_wrOk (p : Nat) (b0 b1 b2 : Byte) (s : State) :
    (putPixel p b0 b1 b2 s).wrOk = s.wrOk := by simp only [putPixel]
@[simp] theorem putPixel_allocCount (p : Nat) (b0 b1 b2 : Byte) (s : State) :
    (putPixel p b0 b1 b2 s).allocCount = s.allocCount := by simp only [putPixel]
@[simp] theorem putPixel_refused (p : Nat) (b0 b1 b2 : Byte) (s : State) :
    (putPixel p b0 b1 b2 s).refused = s.refused := by simp only [putPixel]
@[simp] theorem putPixel_events (p : Nat) (b0 b1 b2 : Byte) (s : State) :
    (putPixel p b0 b1 b2 s).events = s.events := by simp only [putPixel]
@[simp] theorem putPixel_env (p : Nat) (b0 b1 b2 : Byte) (s : State) :
    (putPixel p b0 b1 b2 s).env = s.env := by simp only [putPixel]

/-! ### The moves of the agents are updates of `env` -/

@[simp] theorem hostMoved_eq (s : State) :
    hostMoved s = withEnv { s.env with host := s.env.host.tail } s := rfl
@[simp] theorem openAsked_eq (s : State) :
    openAsked s = withEnv { s.env with opens := s.env.opens.tail, drawn := s.env.drawn + 1 } s := rfl
@[simp] theorem beginAsked_eq (s : State) :
    beginAsked s = withEnv { s.env with begins := s.env.begins.tail, drawn := s.env.drawn + 1 } s := rfl
@[simp] theorem writeAsked_eq (s : State) :
    writeAsked s = withEnv { s.env with writes := s.env.writes.tail, drawn := s.env.drawn + 1 } s := rfl
@[simp] theorem allocAsked_eq (s : State) :
    allocAsked s = withEnv { s.env with allocs := s.env.allocs.tail, drawn := s.env.drawn + 1 } s := rfl
@[simp] theorem sizeAsked_eq (s : State) :
    sizeAsked s = withEnv { s.env with sizes := s.env.sizes.tail, drawn := s.env.drawn + 1 } s := rfl
@[simp] theorem hasNextAsked_eq (s : State) :
    hasNextAsked s = withEnv { s.env with nexts := s.env.nexts.tail, drawn := s.env.drawn + 1 } s := rfl
@[simp] theorem scaledAsked_eq (s : State) :
    scaledAsked s = withEnv { s.env with scaled := s.env.scaled.drop 3, drawn := s.env.drawn + 3 } s := rfl

/-! ### `release` and `ensureCapacity`: the fields they keep -/

@[simp] theorem release_cfg (s : State) : (release s).cfg = s.cfg := by unfold release; split <;> rfl
@[simp] theorem release_ctrlState (s : State) : (release s).ctrlState = s.ctrlState := by unfold release; split <;> rfl
@[simp] theorem release_busHeld (s : State) : (release s).busHeld = s.busHeld := by unfold release; split <;> rfl
@[simp] theorem release_bufSize (s : State) : (release s).bufSize = 0 := rfl
@[simp] theorem release_buf (s : State) : (release s).buf = [] := rfl
@[simp] theorem release_status (s : State) : (release s).status = s.status := by unfold release; split <;> rfl
@[simp] theorem release_fault (s : State) : (release s).fault = s.fault := by unfold release; split <;> rfl
@[simp] theorem release_resp (s : State) : (release s).resp = s.resp := by unfold release; split <;> rfl
@[simp] theorem release_cmd (s : State) : (release s).cmd = s.cmd := by unfold release; split <;> rfl
@[simp] theorem release_phase (s : State) : (release s).phase = s.phase := by unfold release; split <;> rfl
@[simp] theorem release_n (s : State) : (release s).n = s.n := by unfold release; split <;> rfl
@[simp] theorem release_req (s : State) : (release s).req = s.req := by unfold release; split <;> rfl
@[simp] theorem release_i (s : State) : (release s).i = s.i := by unfold release; split <;> rfl
@[simp] theorem release_sendLen (s : State) : (release s).sendLen = s.sendLen := by unfold release; split <;> rfl
@[simp] theorem release_begun (s : State) : (release s).begun = s.begun := by unfold release; split <;> rfl
@[simp] theorem release_wrOk (s : State) : (release s).wrOk = s.wrOk := by unfold release; split <;> rfl
@[simp] theorem release_allocCount (s : State) : (release s).allocCount = s.allocCount := by unfold release; split <;> rfl
@[simp] theorem release_refused (s : State) : (release s).refused = s.refused := by unfold release; split <;> rfl
@[simp] theorem release_events (s : State) :
    (release s).events = s.events ++ (if s.bufSize = 0 then [] else [.release s.bufSize]) := by
  unfold release; split <;> simp [*]
@[simp] theorem release_env (s : State) : (release s).env = s.env := by unfold release; split <;> rfl

@[simp] theorem ensureCapacity_cfg (r : Nat) (s : State) : (ensureCapacity r s).2.cfg = s.cfg := by
  unfold ensureCapacity; split <;> (try split) <;> (try split) <;> (try split) <;> rfl
@[simp] theorem ensureCapacity_ctrlState (r : Nat) (s : State) : (ensureCapacity r s).2.ctrlState = s.ctrlState := by
  unfold ensureCapacity; split <;> (try split) <;> (try split) <;> (try split) <;> rfl
@[simp] theorem ensureCapacity_busHeld (r : Nat) (s : State) : (ensureCapacity r s).2.busHeld = s.busHeld := by
  unfold ensureCapacity; split <;> (try split) <;> (try split) <;> (try split) <;> rfl
@[simp] theorem ensureCapacity_status (r : Nat) (s : State) : (ensureCapacity r s).2.status = s.status := by
  unfold ensureCapacity; split <;> (try split) <;> (try split) <;> (try split) <;> rfl
@[simp] theorem ensureCapacity_fault (r : Nat) (s : State) : (ensureCapacity r s).2.fault = s.fault := by
  unfold ensureCapacity; split <;> (try split) <;> (try split) <;> (try split) <;> rfl
@[simp] theorem ensureCapacity_resp (r : Nat) (s : State) : (ensureCapacity r s).2.resp = s.resp := by
  unfold ensureCapacity; split <;> (try split) <;> (try split) <;> (try split) <;> rfl
@[simp] theorem ensureCapacity_cmd (r : Nat) (s : State) : (ensureCapacity r s).2.cmd = s.cmd := by
  unfold ensureCapacity; split <;> (try split) <;> (try split) <;> (try split) <;> rfl
@[simp] theorem ensureCapacity_phase (r : Nat) (s : State) : (ensureCapacity r s).2.phase = s.phase := by
  unfold ensureCapacity; split <;> (try split) <;> (try split) <;> (try split) <;> rfl
@[simp] theorem ensureCapacity_n (r : Nat) (s : State) : (ensureCapacity r s).2.n = s.n := by
  unfold ensureCapacity; split <;> (try split) <;> (try split) <;> (try split) <;> rfl
@[simp] theorem ensureCapacity_req (r : Nat) (s : State) : (ensureCapacity r s).2.req = s.req := by
  unfold ensureCapacity; split <;> (try split) <;> (try split) <;> (try split) <;> rfl
@[simp] theorem ensureCapacity_i (r : Nat) (s : State) : (ensureCapacity r s).2.i = s.i := by
  unfold ensureCapacity; split <;> (try split) <;> (try split) <;> (try split) <;> rfl
@[simp] theorem ensureCapacity_sendLen (r : Nat) (s : State) : (ensureCapacity r s).2.sendLen = s.sendLen := by
  unfold ensureCapacity; split <;> (try split) <;> (try split) <;> (try split) <;> rfl
@[simp] theorem ensureCapacity_begun (r : Nat) (s : State) : (ensureCapacity r s).2.begun = s.begun := by
  unfold ensureCapacity; split <;> (try split) <;> (try split) <;> (try split) <;> rfl
@[simp] theorem ensureCapacity_wrOk (r : Nat) (s : State) : (ensureCapacity r s).2.wrOk = s.wrOk := by
  unfold ensureCapacity; split <;> (try split) <;> (try split) <;> (try split) <;> rfl
@[simp] theorem ensureCapacity_refused (r : Nat) (s : State) : (ensureCapacity r s).2.refused = s.refused := by
  unfold ensureCapacity; split <;> (try split) <;> (try split) <;> (try split) <;> rfl

/-! ### `takeWord` -/

@[simp] theorem takeWord_cfg (w : Word) (s : State) : (takeWord w s).cfg = s.cfg := by simp [takeWord]
@[simp] theorem takeWord_ctrlState (w : Word) (s : State) :
    (takeWord w s).ctrlState = s.ctrlState := by simp [takeWord]
@[simp] theorem takeWord_busHeld (w : Word) (s : State) : (takeWord w s).busHeld = s.busHeld := by simp [takeWord]
@[simp] theorem takeWord_bufSize (w : Word) (s : State) : (takeWord w s).bufSize = s.bufSize := by simp [takeWord]
@[simp] theorem takeWord_buf (w : Word) (s : State) : (takeWord w s).buf = s.buf := by simp [takeWord]
@[simp] theorem takeWord_status (w : Word) (s : State) : (takeWord w s).status = s.status := by simp [takeWord]
@[simp] theorem takeWord_fault (w : Word) (s : State) : (takeWord w s).fault = s.fault := by simp [takeWord]
@[simp] theorem takeWord_resp (w : Word) (s : State) : (takeWord w s).resp = s.resp := by simp [takeWord]
@[simp] theorem takeWord_cmd (w : Word) (s : State) : (takeWord w s).cmd = s.cmd := by simp [takeWord]
@[simp] theorem takeWord_phase (w : Word) (s : State) : (takeWord w s).phase = s.phase := by simp [takeWord]
@[simp] theorem takeWord_n (w : Word) (s : State) : (takeWord w s).n = s.n := by simp [takeWord]
@[simp] theorem takeWord_req (w : Word) (s : State) : (takeWord w s).req = s.req := by simp [takeWord]
@[simp] theorem takeWord_i (w : Word) (s : State) : (takeWord w s).i = s.i := by simp [takeWord]
@[simp] theorem takeWord_sendLen (w : Word) (s : State) : (takeWord w s).sendLen = s.sendLen := by simp [takeWord]
@[simp] theorem takeWord_begun (w : Word) (s : State) : (takeWord w s).begun = s.begun := by simp [takeWord]
@[simp] theorem takeWord_wrOk (w : Word) (s : State) : (takeWord w s).wrOk = s.wrOk := by simp [takeWord]
@[simp] theorem takeWord_allocCount (w : Word) (s : State) :
    (takeWord w s).allocCount = s.allocCount := by simp [takeWord]
@[simp] theorem takeWord_refused (w : Word) (s : State) : (takeWord w s).refused = s.refused := by simp [takeWord]
@[simp] theorem takeWord_events (w : Word) (s : State) :
    (takeWord w s).events = s.events ++ [.cmd w] := by simp [takeWord]
@[simp] theorem takeWord_env (w : Word) (s : State) :
    (takeWord w s).env = { s.env with host := s.env.host.tail } := by simp [takeWord]

/-! ### `askHasNext` -/

@[simp] theorem askHasNext_cfg (s : State) : (askHasNext s).cfg = s.cfg := by simp [askHasNext]
@[simp] theorem askHasNext_ctrlState (s : State) : (askHasNext s).ctrlState = s.ctrlState := by simp [askHasNext]
@[simp] theorem askHasNext_busHeld (s : State) : (askHasNext s).busHeld = s.busHeld := by simp [askHasNext]
@[simp] theorem askHasNext_bufSize (s : State) : (askHasNext s).bufSize = s.bufSize := by simp [askHasNext]
@[simp] theorem askHasNext_buf (s : State) : (askHasNext s).buf = s.buf := by simp [askHasNext]
@[simp] theorem askHasNext_status (s : State) : (askHasNext s).status = s.status := by simp [askHasNext]
@[simp] theorem askHasNext_fault (s : State) : (askHasNext s).fault = s.fault := by simp [askHasNext]
@[simp] theorem askHasNext_resp (s : State) : (askHasNext s).resp = s.resp := by simp [askHasNext]
@[simp] theorem askHasNext_cmd (s : State) : (askHasNext s).cmd = s.cmd := by simp [askHasNext]
@[simp] theorem askHasNext_phase (s : State) : (askHasNext s).phase = s.phase := by simp [askHasNext]
@[simp] theorem askHasNext_n (s : State) : (askHasNext s).n = s.n := by simp [askHasNext]
@[simp] theorem askHasNext_req (s : State) : (askHasNext s).req = s.req := by simp [askHasNext]
@[simp] theorem askHasNext_i (s : State) : (askHasNext s).i = s.i := by simp [askHasNext]
@[simp] theorem askHasNext_sendLen (s : State) : (askHasNext s).sendLen = s.sendLen := by simp [askHasNext]
@[simp] theorem askHasNext_begun (s : State) : (askHasNext s).begun = s.begun := by simp [askHasNext]
@[simp] theorem askHasNext_wrOk (s : State) : (askHasNext s).wrOk = s.wrOk := by simp [askHasNext]
@[simp] theorem askHasNext_allocCount (s : State) : (askHasNext s).allocCount = s.allocCount := by simp [askHasNext]
@[simp] theorem askHasNext_refused (s : State) : (askHasNext s).refused = s.refused := by simp [askHasNext]
@[simp] theorem askHasNext_events (s : State) :
    (askHasNext s).events = s.events ++ [.srcHasNext (hasNextAnswer s)] := by simp [askHasNext]
@[simp] theorem askHasNext_env (s : State) :
    (askHasNext s).env = { s.env with nexts := s.env.nexts.tail, drawn := s.env.drawn + 1 } := by simp [askHasNext]

/-! ### `takePixel` -/

@[simp] theorem takePixel_cfg (b0 b1 b2 : Byte) (s : State) :
    (takePixel b0 b1 b2 s).cfg = s.cfg := by simp [takePixel]
@[simp] theorem takePixel_ctrlState (b0 b1 b2 : Byte) (s : State) :
    (takePixel b0 b1 b2 s).ctrlState = s.ctrlState := by simp [takePixel]
@[simp] theorem takePixel_busHeld (b0 b1 b2 : Byte) (s : State) :
    (takePixel b0 b1 b2 s).busHeld = s.busHeld := by simp [takePixel]
@[simp] theorem takePixel_bufSize (b0 b1 b2 : Byte) (s : State) :
    (takePixel b0 b1 b2 s).bufSize = s.bufSize := by simp [takePixel]
@[simp] theorem takePixel_buf (b0 b1 b2 : Byte) (s : State) :
    (takePixel b0 b1 b2 s).buf = s.buf := by simp [takePixel]
@[simp] theorem takePixel_status (b0 b1 b2 : Byte) (s : State) :
    (takePixel b0 b1 b2 s).status = s.status := by simp [takePixel]
@[simp] theorem takePixel_fault (b0 b1 b2 : Byte) (s : State) :
    (takePixel b0 b1 b2 s).fault = s.fault := by simp [takePixel]
@[simp] theorem takePixel_resp (b0 b1 b2 : Byte) (s : State) :
    (takePixel b0 b1 b2 s).resp = s.resp := by simp [takePixel]
@[simp] theorem takePixel_cmd (b0 b1 b2 : Byte) (s : State) :
    (takePixel b0 b1 b2 s).cmd = s.cmd := by simp [takePixel]
@[simp] theorem takePixel_phase (b0 b1 b2 : Byte) (s : State) :
    (takePixel b0 b1 b2 s).phase = s.phase := by simp [takePixel]
@[simp] theorem takePixel_n (b0 b1 b2 : Byte) (s : State) : (takePixel b0 b1 b2 s).n = s.n := by simp [takePixel]
@[simp] theorem takePixel_req (b0 b1 b2 : Byte) (s : State) :
    (takePixel b0 b1 b2 s).req = s.req := by simp [takePixel]
@[simp] theorem takePixel_i (b0 b1 b2 : Byte) (s : State) : (takePixel b0 b1 b2 s).i = s.i := by simp [takePixel]
@[simp] theorem takePixel_sendLen (b0 b1 b2 : Byte) (s : State) :
    (takePixel b0 b1 b2 s).sendLen = s.sendLen := by simp [takePixel]
@[simp] theorem takePixel_begun (b0 b1 b2 : Byte) (s : State) :
    (takePixel b0 b1 b2 s).begun = s.begun := by simp [takePixel]
@[simp] theorem takePixel_wrOk (b0 b1 b2 : Byte) (s : State) :
    (takePixel b0 b1 b2 s).wrOk = s.wrOk := by simp [takePixel]
@[simp] theorem takePixel_allocCount (b0 b1 b2 : Byte) (s : State) :
    (takePixel b0 b1 b2 s).allocCount = s.allocCount := by simp [takePixel]
@[simp] theorem takePixel_refused (b0 b1 b2 : Byte) (s : State) :
    (takePixel b0 b1 b2 s).refused = s.refused := by simp [takePixel]
@[simp] theorem takePixel_events (b0 b1 b2 : Byte) (s : State) :
    (takePixel b0 b1 b2 s).events = s.events ++ [.srcByte 0 b0, .srcByte 1 b1, .srcByte 2 b2] := by simp [takePixel]
@[simp] theorem takePixel_env (b0 b1 b2 : Byte) (s : State) :
    (takePixel b0 b1 b2 s).env = { s.env with scaled := s.env.scaled.drop 3, drawn := s.env.drawn + 3 } := by simp [takePixel]

/-! ### `pixelDone` -/

@[simp] theorem pixelDone_cfg (s : State) : (pixelDone s).cfg = s.cfg := by simp [pixelDone]
@[simp] theorem pixelDone_ctrlState (s : State) : (pixelDone s).ctrlState = s.ctrlState := by simp [pixelDone]
@[simp] theorem pixelDone_busHeld (s : State) : (pixelDone s).busHeld = s.busHeld := by simp [pixelDone]
@[simp] theorem pixelDone_bufSize (s : State) : (pixelDone s).bufSize = s.bufSize := by simp [pixelDone]
@[simp] theorem pixelDone_buf (s : State) : (pixelDone s).buf = s.buf := by simp [pixelDone]
@[simp] theorem pixelDone_status (s : State) : (pixelDone s).status = s.status := by simp [pixelDone]
@[simp] theorem pixelDone_fault (s : State) : (pixelDone s).fault = s.fault := by simp [pixelDone]
@[simp] theorem pixelDone_resp (s : State) : (pixelDone s).resp = s.resp := by simp [pixelDone]
@[simp] theorem pixelDone_cmd (s : State) : (pixelDone s).cmd = s.cmd := by simp [pixelDone]
@[simp] theorem pixelDone_phase (s : State) :
    (pixelDone s).phase = if regI s + 1 = regN s then .dCheck else .dPixel := by simp [pixelDone]
@[simp] theorem pixelDone_n (s : State) : (pixelDone s).n = s.n := by simp [pixelDone]
@[simp] theorem pixelDone_req (s : State) : (pixelDone s).req = s.req := by simp [pixelDone]
@[simp] theorem pixelDone_i (s : State) : (pixelDone s).i = some (regI s + 1) := by simp [pixelDone]
@[simp] theorem pixelDone_sendLen (s : State) : (pixelDone s).sendLen = s.sendLen := by simp [pixelDone]
@[simp] theorem pixelDone_begun (s : State) : (pixelDone s).begun = s.begun := by simp [pixelDone]
@[simp] theorem pixelDone_wrOk (s : State) : (pixelDone s).wrOk = s.wrOk := by simp [pixelDone]
@[simp] theorem pixelDone_allocCount (s : State) : (pixelDone s).allocCount = s.allocCount := by simp [pixelDone]
@[simp] theorem pixelDone_refused (s : State) : (pixelDone s).refused = s.refused := by simp [pixelDone]
@[simp] theorem pixelDone_events (s : State) :
    (pixelDone s).events = s.events ++ [.srcAdvance, .srcDither] := by simp [pixelDone]
@[simp] theorem pixelDone_env (s : State) : (pixelDone s).env = s.env := by simp [pixelDone]

/-! ### `mismatch` -/

@[simp] theorem mismatch_cfg (s : State) : (mismatch s).cfg = s.cfg := by simp [mismatch]
@[simp] theorem mismatch_ctrlState (s : State) :
    (mismatch s).ctrlState = if s.ctrlState = .transmitting then .ready else s.ctrlState := by simp [mismatch]
@[simp] theorem mismatch_busHeld (s : State) : (mismatch s).busHeld = s.busHeld := by simp [mismatch]
@[simp] theorem mismatch_bufSize (s : State) : (mismatch s).bufSize = s.bufSize := by simp [mismatch]
@[simp] theorem mismatch_buf (s : State) : (mismatch s).buf = s.buf := by simp [mismatch]
@[simp] theorem mismatch_status (s : State) : (mismatch s).status = .streamLengthMismatch := by simp [mismatch]
@[simp] theorem mismatch_fault (s : State) : (mismatch s).fault = s.fault := by simp [mismatch]
@[simp] theorem mismatch_resp (s : State) :
    (mismatch s).resp = some { code := .streamLengthMismatch, value := some s.bufSize, symbols := none } := by simp [mismatch]
@[simp] theorem mismatch_cmd (s : State) : (mismatch s).cmd = none := by simp [mismatch]
@[simp] theorem mismatch_phase (s : State) : (mismatch s).phase = .idle := by simp [mismatch]
@[simp] theorem mismatch_n (s : State) : (mismatch s).n = s.n := by simp [mismatch]
@[simp] theorem mismatch_req (s : State) : (mismatch s).req = s.req := by simp [mismatch]
@[simp] theorem mismatch_i (s : State) : (mismatch s).i = s.i := by simp [mismatch]
@[simp] theorem mismatch_sendLen (s : State) : (mismatch s).sendLen = s.sendLen := by simp [mismatch]
@[simp] theorem mismatch_begun (s : State) : (mismatch s).begun = s.begun := by simp [mismatch]
@[simp] theorem mismatch_wrOk (s : State) : (mismatch s).wrOk = s.wrOk := by simp [mismatch]
@[simp] theorem mismatch_allocCount (s : State) : (mismatch s).allocCount = s.allocCount := by simp [mismatch]
@[simp] theorem mismatch_refused (s : State) : (mismatch s).refused = s.refused := by simp [mismatch]
@[simp] theorem mismatch_events (s : State) :
    (mismatch s).events = s.events ++ [.resp { code := .streamLengthMismatch, value := some s.bufSize, symbols := none }] := by simp [mismatch]
@[simp] theorem mismatch_env (s : State) : (mismatch s).env = s.env := by simp [mismatch]

/-! ### `frameComplete` -/

@[simp] theorem frameComplete_cfg (s : State) : (frameComplete s).cfg = s.cfg := by simp [frameComplete]
@[simp] theorem frameComplete_ctrlState (s : State) :
    (frameComplete s).ctrlState = s.ctrlState := by simp [frameComplete]
@[simp] theorem frameComplete_busHeld (s : State) : (frameComplete s).busHeld = s.busHeld := by simp [frameComplete]
@[simp] theorem frameComplete_bufSize (s : State) : (frameComplete s).bufSize = s.bufSize := by simp [frameComplete]
@[simp] theorem frameComplete_buf (s : State) : (frameComplete s).buf = s.buf := by simp [frameComplete]
@[simp] theorem frameComplete_status (s : State) : (frameComplete s).status = s.status := by simp [frameComplete]
@[simp] theorem frameComplete_fault (s : State) : (frameComplete s).fault = s.fault := by simp [frameComplete]
@[simp] theorem frameComplete_resp (s : State) : (frameComplete s).resp = s.resp := by simp [frameComplete]
@[simp] theorem frameComplete_cmd (s : State) : (frameComplete s).cmd = s.cmd := by simp [frameComplete]
@[simp] theorem frameComplete_phase (s : State) : (frameComplete s).phase = .sBegin := by simp [frameComplete]
@[simp] theorem frameComplete_n (s : State) : (frameComplete s).n = s.n := by simp [frameComplete]
@[simp] theorem frameComplete_req (s : State) : (frameComplete s).req = s.req := by simp [frameComplete]
@[simp] theorem frameComplete_i (s : State) : (frameComplete s).i = s.i := by simp [frameComplete]
@[simp] theorem frameComplete_sendLen (s : State) :
    (frameComplete s).sendLen = some s.bufSize := by simp [frameComplete]
@[simp] theorem frameComplete_begun (s : State) : (frameComplete s).begun = s.begun := by simp [frameComplete]
@[simp] theorem frameComplete_wrOk (s : State) : (frameComplete s).wrOk = s.wrOk := by simp [frameComplete]
@[simp] theorem frameComplete_allocCount (s : State) :
    (frameComplete s).allocCount = s.allocCount := by simp [frameComplete]
@[simp] theorem frameComplete_refused (s : State) : (frameComplete s).refused = s.refused := by simp [frameComplete]
@[simp] theorem frameComplete_events (s : State) : (frameComplete s).events = s.events := by simp [frameComplete]
@[simp] theorem frameComplete_env (s : State) : (frameComplete s).env = s.env := by simp [frameComplete]

/-! ### `allocated` -/

@[simp] theorem allocated_cfg (s : State) : (allocated s).cfg = s.cfg := by simp [allocated]
@[simp] theorem allocated_ctrlState (s : State) : (allocated s).ctrlState = s.ctrlState := by simp [allocated]
@[simp] theorem allocated_busHeld (s : State) : (allocated s).busHeld = s.busHeld := by simp [allocated]
@[simp] theorem allocated_bufSize (s : State) : (allocated s).bufSize = s.bufSize := by simp [allocated]
@[simp] theorem allocated_buf (s : State) : (allocated s).buf = s.buf := by simp [allocated]
@[simp] theorem allocated_status (s : State) : (allocated s).status = s.status := by simp [allocated]
@[simp] theorem allocated_fault (s : State) : (allocated s).fault = s.fault := by simp [allocated]
@[simp] theorem allocated_resp (s : State) : (allocated s).resp = s.resp := by simp [allocated]
@[simp] theorem allocated_cmd (s : State) : (allocated s).cmd = s.cmd := by simp [allocated]
@[simp] theorem allocated_phase (s : State) :
    (allocated s).phase = if regN s = 0 then .dCheck else .dPixel := by simp [allocated]
@[simp] theorem allocated_n (s : State) : (allocated s).n = s.n := by simp [allocated]
@[simp] theorem allocated_req (s : State) : (allocated s).req = s.req := by simp [allocated]
@[simp] theorem allocated_i (s : State) : (allocated s).i = some 0 := by simp [allocated]
@[simp] theorem allocated_sendLen (s : State) : (allocated s).sendLen = s.sendLen := by simp [allocated]
@[simp] theorem allocated_begun (s : State) : (allocated s).begun = s.begun := by simp [allocated]
@[simp] theorem allocated_wrOk (s : State) : (allocated s).wrOk = s.wrOk := by simp [allocated]
@[simp] theorem allocated_allocCount (s : State) : (allocated s).allocCount = s.allocCount := by simp [allocated]
@[simp] theorem allocated_refused (s : State) : (allocated s).refused = s.refused := by simp [allocated]
@[simp] theorem allocated_events (s : State) : (allocated s).events = s.events := by simp [allocated]
@[simp] theorem allocated_env (s : State) : (allocated s).env = s.env := by simp [allocated]

/-! ### `sendAccepted` -/

@[simp] theorem sendAccepted_cfg (len : Nat) (s : State) : (sendAccepted len s).cfg = s.cfg := by simp [sendAccepted]
@[simp] theorem sendAccepted_ctrlState (len : Nat) (s : State) :
    (sendAccepted len s).ctrlState = .transmitting := by simp [sendAccepted]
@[simp] theorem sendAccepted_busHeld (len : Nat) (s : State) :
    (sendAccepted len s).busHeld = s.busHeld := by simp [sendAccepted]
@[simp] theorem sendAccepted_bufSize (len : Nat) (s : State) :
    (sendAccepted len s).bufSize = s.bufSize := by simp [sendAccepted]
@[simp] theorem sendAccepted_buf (len : Nat) (s : State) : (sendAccepted len s).buf = s.buf := by simp [sendAccepted]
@[simp] theorem sendAccepted_status (len : Nat) (s : State) :
    (sendAccepted len s).status = s.status := by simp [sendAccepted]
@[simp] theorem sendAccepted_fault (len : Nat) (s : State) :
    (sendAccepted len s).fault = s.fault := by simp [sendAccepted]
@[simp] theorem sendAccepted_resp (len : Nat) (s : State) :
    (sendAccepted len s).resp = s.resp := by simp [sendAccepted]
@[simp] theorem sendAccepted_cmd (len : Nat) (s : State) :
    (sendAccepted len s).cmd = some (.send len) := by simp [sendAccepted]
@[simp] theorem sendAccepted_phase (len : Nat) (s : State) :
    (sendAccepted len s).phase = .sBegin := by simp [sendAccepted]
@[simp] theorem sendAccepted_n (len : Nat) (s : State) : (sendAccepted len s).n = s.n := by simp [sendAccepted]
@[simp] theorem sendAccepted_req (len : Nat) (s : State) : (sendAccepted len s).req = s.req := by simp [sendAccepted]
@[simp] theorem sendAccepted_i (len : Nat) (s : State) : (sendAccepted len s).i = s.i := by simp [sendAccepted]
@[simp] theorem sendAccepted_sendLen (len : Nat) (s : State) :
    (sendAccepted len s).sendLen = some len := by simp [sendAccepted]
@[simp] theorem sendAccepted_begun (len : Nat) (s : State) :
    (sendAccepted len s).begun = s.begun := by simp [sendAccepted]
@[simp] theorem sendAccepted_wrOk (len : Nat) (s : State) :
    (sendAccepted len s).wrOk = s.wrOk := by simp [sendAccepted]
@[simp] theorem sendAccepted_allocCount (len : Nat) (s : State) :
    (sendAccepted len s).allocCount = s.allocCount := by simp [sendAccepted]
@[simp] theorem sendAccepted_refused (len : Nat) (s : State) :
    (sendAccepted len s).refused = s.refused := by simp [sendAccepted]
@[simp] theorem sendAccepted_events (len : Nat) (s : State) :
    (sendAccepted len s).events = s.events := by simp [sendAccepted]
@[simp] theorem sendAccepted_env (len : Nat) (s : State) : (sendAccepted len s).env = s.env := by simp [sendAccepted]

/-! ### `writeIssued` -/

@[simp] theorem writeIssued_cfg (bytes : List Byte) (s : State) :
    (writeIssued bytes s).cfg = s.cfg := by simp [writeIssued]
@[simp] theorem writeIssued_ctrlState (bytes : List Byte) (s : State) :
    (writeIssued bytes s).ctrlState = s.ctrlState := by simp [writeIssued]
@[simp] theorem writeIssued_busHeld (bytes : List Byte) (s : State) :
    (writeIssued bytes s).busHeld = s.busHeld := by simp [writeIssued]
@[simp] theorem writeIssued_bufSize (bytes : List Byte) (s : State) :
    (writeIssued bytes s).bufSize = s.bufSize := by simp [writeIssued]
@[simp] theorem writeIssued_buf (bytes : List Byte) (s : State) :
    (writeIssued bytes s).buf = s.buf := by simp [writeIssued]
@[simp] theorem writeIssued_status (bytes : List Byte) (s : State) :
    (writeIssued bytes s).status = s.status := by simp [writeIssued]
@[simp] theorem writeIssued_fault (bytes : List Byte) (s : State) :
    (writeIssued bytes s).fault = s.fault := by simp [writeIssued]
@[simp] theorem writeIssued_resp (bytes : List Byte) (s : State) :
    (writeIssued bytes s).resp = s.resp := by simp [writeIssued]
@[simp] theorem writeIssued_cmd (bytes : List Byte) (s : State) :
    (writeIssued bytes s).cmd = s.cmd := by simp [writeIssued]
@[simp] theorem writeIssued_phase (bytes : List Byte) (s : State) :
    (writeIssued bytes s).phase = .sWrite := by simp [writeIssued]
@[simp] theorem writeIssued_n (bytes : List Byte) (s : State) : (writeIssued bytes s).n = s.n := by simp [writeIssued]
@[simp] theorem writeIssued_req (bytes : List Byte) (s : State) :
    (writeIssued bytes s).req = s.req := by simp [writeIssued]
@[simp] theorem writeIssued_i (bytes : List Byte) (s : State) : (writeIssued bytes s).i = s.i := by simp [writeIssued]
@[simp] theorem writeIssued_sendLen (bytes : List Byte) (s : State) :
    (writeIssued bytes s).sendLen = s.sendLen := by simp [writeIssued]
@[simp] theorem writeIssued_begun (bytes : List Byte) (s : State) :
    (writeIssued bytes s).begun = some true := by simp [writeIssued]
@[simp] theorem writeIssued_wrOk (bytes : List Byte) (s : State) :
    (writeIssued bytes s).wrOk = s.wrOk := by simp [writeIssued]
@[simp] theorem writeIssued_allocCount (bytes : List Byte) (s : State) :
    (writeIssued bytes s).allocCount = s.allocCount := by simp [writeIssued]
@[simp] theorem writeIssued_refused (bytes : List Byte) (s : State) :
    (writeIssued bytes s).refused = s.refused := by simp [writeIssued]
@[simp] theorem writeIssued_events (bytes : List Byte) (s : State) :
    (writeIssued bytes s).events = s.events := by simp [writeIssued]
@[simp] theorem writeIssued_env (bytes : List Byte) (s : State) :
    (writeIssued bytes s).env = { s.env with busReq := some bytes } := by simp [writeIssued]

/-! ### `writeCompleted` -/

@[simp] theorem writeCompleted_cfg (bytes : List Byte) (e : Nat) (ok : Bool) (s : State) :
    (writeCompleted bytes e ok s).cfg = s.cfg := by simp [writeCompleted]
@[simp] theorem writeCompleted_ctrlState (bytes : List Byte) (e : Nat) (ok : Bool) (s : State) :
    (writeCompleted bytes e ok s).ctrlState = s.ctrlState := by simp [writeCompleted]
@[simp] theorem writeCompleted_busHeld (bytes : List Byte) (e : Nat) (ok : Bool) (s : State) :
    (writeCompleted bytes e ok s).busHeld = s.busHeld := by simp [writeCompleted]
@[simp] theorem writeCompleted_bufSize (bytes : List Byte) (e : Nat) (ok : Bool) (s : State) :
    (writeCompleted bytes e ok s).bufSize = s.bufSize := by simp [writeCompleted]
@[simp] theorem writeCompleted_buf (bytes : List Byte) (e : Nat) (ok : Bool) (s : State) :
    (writeCompleted bytes e ok s).buf = s.buf := by simp [writeCompleted]
@[simp] theorem writeCompleted_status (bytes : List Byte) (e : Nat) (ok : Bool) (s : State) :
    (writeCompleted bytes e ok s).status = s.status := by simp [writeCompleted]
@[simp] theorem writeCompleted_fault (bytes : List Byte) (e : Nat) (ok : Bool) (s : State) :
    (writeCompleted bytes e ok s).fault = s.fault := by simp [writeCompleted]
@[simp] theorem writeCompleted_resp (bytes : List Byte) (e : Nat) (ok : Bool) (s : State) :
    (writeCompleted bytes e ok s).resp = s.resp := by simp [writeCompleted]
@[simp] theorem writeCompleted_cmd (bytes : List Byte) (e : Nat) (ok : Bool) (s : State) :
    (writeCompleted bytes e ok s).cmd = s.cmd := by simp [writeCompleted]
@[simp] theorem writeCompleted_phase (bytes : List Byte) (e : Nat) (ok : Bool) (s : State) :
    (writeCompleted bytes e ok s).phase = .sEnd := by simp [writeCompleted]
@[simp] theorem writeCompleted_n (bytes : List Byte) (e : Nat) (ok : Bool) (s : State) :
    (writeCompleted bytes e ok s).n = s.n := by simp [writeCompleted]
@[simp] theorem writeCompleted_req (bytes : List Byte) (e : Nat) (ok : Bool) (s : State) :
    (writeCompleted bytes e ok s).req = s.req := by simp [writeCompleted]
@[simp] theorem writeCompleted_i (bytes : List Byte) (e : Nat) (ok : Bool) (s : State) :
    (writeCompleted bytes e ok s).i = s.i := by simp [writeCompleted]
@[simp] theorem writeCompleted_sendLen (bytes : List Byte) (e : Nat) (ok : Bool) (s : State) :
    (writeCompleted bytes e ok s).sendLen = s.sendLen := by simp [writeCompleted]
@[simp] theorem writeCompleted_begun (bytes : List Byte) (e : Nat) (ok : Bool) (s : State) :
    (writeCompleted bytes e ok s).begun = s.begun := by simp [writeCompleted]
@[simp] theorem writeCompleted_wrOk (bytes : List Byte) (e : Nat) (ok : Bool) (s : State) :
    (writeCompleted bytes e ok s).wrOk = some ok := by simp [writeCompleted]
@[simp] theorem writeCompleted_allocCount (bytes : List Byte) (e : Nat) (ok : Bool) (s : State) :
    (writeCompleted bytes e ok s).allocCount = s.allocCount := by simp [writeCompleted]
@[simp] theorem writeCompleted_refused (bytes : List Byte) (e : Nat) (ok : Bool) (s : State) :
    (writeCompleted bytes e ok s).refused = s.refused := by simp [writeCompleted]
@[simp] theorem writeCompleted_events (bytes : List Byte) (e : Nat) (ok : Bool) (s : State) :
    (writeCompleted bytes e ok s).events = s.events ++ [.busWrite bytes (min e bytes.length) ok] := by simp [writeCompleted]
@[simp] theorem writeCompleted_env (bytes : List Byte) (e : Nat) (ok : Bool) (s : State) :
    (writeCompleted bytes e ok s).env = { s.env with busReq := none } := by simp [writeCompleted]

/-! ### `beginFailed` -/

@[simp] theorem beginFailed_cfg (s : State) : (beginFailed s).cfg = s.cfg := by simp [beginFailed]
@[simp] theorem beginFailed_ctrlState (s : State) :
    (beginFailed s).ctrlState = if s.ctrlState = .transmitting then .ready else s.ctrlState := by simp [beginFailed]
@[simp] theorem beginFailed_busHeld (s : State) : (beginFailed s).busHeld = s.busHeld := by simp [beginFailed]
@[simp] theorem beginFailed_bufSize (s : State) : (beginFailed s).bufSize = s.bufSize := by simp [beginFailed]
@[simp] theorem beginFailed_buf (s : State) : (beginFailed s).buf = s.buf := by simp [beginFailed]
@[simp] theorem beginFailed_status (s : State) : (beginFailed s).status = .busUnavailable := by simp [beginFailed]
@[simp] theorem beginFailed_fault (s : State) : (beginFailed s).fault = s.fault := by simp [beginFailed]
@[simp] theorem beginFailed_resp (s : State) :
    (beginFailed s).resp = some { code := .busUnavailable, value := some (sendValue s), symbols := none } := rfl
@[simp] theorem beginFailed_cmd (s : State) : (beginFailed s).cmd = none := by simp [beginFailed]
@[simp] theorem beginFailed_phase (s : State) : (beginFailed s).phase = .idle := by simp [beginFailed]
@[simp] theorem beginFailed_n (s : State) : (beginFailed s).n = s.n := by simp [beginFailed]
@[simp] theorem beginFailed_req (s : State) : (beginFailed s).req = s.req := by simp [beginFailed]
@[simp] theorem beginFailed_i (s : State) : (beginFailed s).i = s.i := by simp [beginFailed]
@[simp] theorem beginFailed_sendLen (s : State) : (beginFailed s).sendLen = s.sendLen := by simp [beginFailed]
@[simp] theorem beginFailed_begun (s : State) : (beginFailed s).begun = some false := by simp [beginFailed]
@[simp] theorem beginFailed_wrOk (s : State) : (beginFailed s).wrOk = s.wrOk := by simp [beginFailed]
@[simp] theorem beginFailed_allocCount (s : State) :
    (beginFailed s).allocCount = s.allocCount := by simp [beginFailed]
@[simp] theorem beginFailed_refused (s : State) : (beginFailed s).refused = s.refused := by simp [beginFailed]
@[simp] theorem beginFailed_events (s : State) :
    (beginFailed s).events = s.events ++ [.resp { code := .busUnavailable, value := some (sendValue s), symbols := none }] := rfl
@[simp] theorem beginFailed_env (s : State) : (beginFailed s).env = s.env := by simp [beginFailed]

/-! ### `opened` -/

@[simp] theorem opened_cfg (ok : Bool) (s : State) : (opened ok s).cfg = s.cfg := by cases ok <;> simp [opened]
@[simp] theorem opened_ctrlState (ok : Bool) (s : State) :
    (opened ok s).ctrlState = if ok then .ready else if s.ctrlState = .transmitting then .ready else s.ctrlState := by cases ok <;> simp [opened]
@[simp] theorem opened_busHeld (ok : Bool) (s : State) :
    (opened ok s).busHeld = (ok || s.busHeld) := by cases ok <;> simp [opened]
@[simp] theorem opened_bufSize (ok : Bool) (s : State) :
    (opened ok s).bufSize = s.bufSize := by cases ok <;> simp [opened]
@[simp] theorem opened_buf (ok : Bool) (s : State) : (opened ok s).buf = s.buf := by cases ok <;> simp [opened]
@[simp] theorem opened_status (ok : Bool) (s : State) :
    (opened ok s).status = if ok then .ok else .busUnavailable := by cases ok <;> simp [opened]
@[simp] theorem opened_fault (ok : Bool) (s : State) : (opened ok s).fault = s.fault := by cases ok <;> simp [opened]
@[simp] theorem opened_resp (ok : Bool) (s : State) :
    (opened ok s).resp = some { code := if ok then .ok else .busUnavailable, value := none, symbols := none } := by cases ok <;> simp [opened]
@[simp] theorem opened_cmd (ok : Bool) (s : State) : (opened ok s).cmd = none := by cases ok <;> simp [opened]
@[simp] theorem opened_phase (ok : Bool) (s : State) : (opened ok s).phase = .idle := by cases ok <;> simp [opened]
@[simp] theorem opened_n (ok : Bool) (s : State) : (opened ok s).n = s.n := by cases ok <;> simp [opened]
@[simp] theorem opened_req (ok : Bool) (s : State) : (opened ok s).req = s.req := by cases ok <;> simp [opened]
@[simp] theorem opened_i (ok : Bool) (s : State) : (opened ok s).i = s.i := by cases ok <;> simp [opened]
@[simp] theorem opened_sendLen (ok : Bool) (s : State) :
    (opened ok s).sendLen = s.sendLen := by cases ok <;> simp [opened]
@[simp] theorem opened_begun (ok : Bool) (s : State) : (opened ok s).begun = s.begun := by cases ok <;> simp [opened]
@[simp] theorem opened_wrOk (ok : Bool) (s : State) : (opened ok s).wrOk = s.wrOk := by cases ok <;> simp [opened]
@[simp] theorem opened_allocCount (ok : Bool) (s : State) :
    (opened ok s).allocCount = s.allocCount := by cases ok <;> simp [opened]
@[simp] theorem opened_refused (ok : Bool) (s : State) :
    (opened ok s).refused = s.refused := by cases ok <;> simp [opened]
@[simp] theorem opened_events (ok : Bool) (s : State) :
    (opened ok s).events = s.events ++ [.resp { code := if ok then .ok else .busUnavailable, value := none, symbols := none }] := by cases ok <;> simp [opened]
@[simp] theorem opened_env (ok : Bool) (s : State) : (opened ok s).env = s.env := by cases ok <;> simp [opened]


end Sys2Proof.Machine
end

