-- ==== Sys2Proof/Laws/Ops.lean ====
section
/-! SUPPORT. For each shared operation, once: everything it can do. The claims cite these instead of unfolding the
operations. -/

namespace Sys2Proof.Machine

/-! ### The checks of 60_exceptions.md R113 -/

theorem halted_eq_none (s : State) : halted s = none ↔ Live s := by
  unfold halted Live
  cases s.refused <;> cases s.fault <;> simp

theorem halted_of_live (s : State) (h : Live s) : halted s = none := (halted_eq_none s).2 h

theorem halted_of_refused (s : State) (h : s.refused = true) : halted s = some (.refused (refusalOf s.cfg)) := by
  simp [halted, h]

theorem halted_of_fault (s : State) (c : FaultCode) (hr : s.refused = false) (h : s.fault = some c) :
    halted s = some (.fault (.quiescent c)) := by
  simp [halted, hr, h]

/-- A halted machine answers no next state. -/
theorem halted_ne_next (s t : State) : halted s ≠ some (.next t) := by
  unfold halted
  cases s.refused <;> cases s.fault <;> simp

/-- Where no common check holds, a command does its own work. -/
theorem checked_of_accepting (s : State) (work : State → State) (h : Accepting s) :
    checked s work = .next (work s) := by
  obtain ⟨hl, hc⟩ := h
  unfold checked
  rw [halted_of_live s hl]
  rcases hc with hc | hc <;> simp [hc]

/-- Whenever a checked command answers a next state: the machine had a step, and it is a common fault or the work. -/
theorem checked_cases (s t : State) (work : State → State) (h : checked s work = .next t) :
    Live s ∧ (s.ctrlState = .tornDown ∧ t = raise .afterTeardown s ∨
      s.ctrlState = .transmitting ∧ t = raise .overlap s ∨
      (s.ctrlState = .uninit ∨ s.ctrlState = .ready) ∧ t = work s) := by
  unfold checked at h
  cases hh : halted s with
  | some stop =>
    rw [hh] at h
    exact absurd (by rw [hh]; exact congrArg some h) (halted_ne_next s t)
  | none =>
    rw [hh] at h
    refine ⟨(halted_eq_none s).1 hh, ?_⟩
    have ht := Host.Outcome.next.inj h
    cases hc : s.ctrlState <;> rw [hc] at ht <;> simp [ht]

theorem checked_of_tornDown (s : State) (work : State → State) (hl : Live s) (h : s.ctrlState = .tornDown) :
    checked s work = .next (raise .afterTeardown s) := by
  simp [checked, halted_of_live s hl, h]

theorem checked_of_transmitting (s : State) (work : State → State) (hl : Live s)
    (h : s.ctrlState = .transmitting) : checked s work = .next (raise .overlap s) := by
  simp [checked, halted_of_live s hl, h]

/-- The work a command does once the common checks have passed. -/
def work : Instr → State → State
  | .init => init
  | .maxrate => fun s => finish .ok (some Config.maxRefreshRate) none (accept .maxrate s)
  | .encode b => fun s => finish .ok none (some (enc s.cfg b)) (accept (.encode b) s)
  | .ensure req => fun s => ensure req (accept (.ensure req) s)
  | .drive => drive
  | .send len => send len
  | .teardown => fun s => teardown (accept .teardown s)

/-- Every command is the common checks and then its work. -/
theorem exec_eq_checked (i : Instr) (s : State) : exec i s = checked s (work i) := by
  cases i <;> rfl

/-- Everything a command can do (60_exceptions.md R113). -/
theorem exec_cases (i : Instr) (s t : State) (h : exec i s = .next t) :
    Live s ∧ (s.ctrlState = .tornDown ∧ t = raise .afterTeardown s ∨
      s.ctrlState = .transmitting ∧ t = raise .overlap s ∨
      (s.ctrlState = .uninit ∨ s.ctrlState = .ready) ∧ t = work i s) :=
  checked_cases s t (work i) (by rw [← exec_eq_checked]; exact h)

/-- A command in a state that accepts it does its work. -/
theorem exec_of_accepting (i : Instr) (s : State) (h : Accepting s) : exec i s = .next (work i s) := by
  rw [exec_eq_checked, checked_of_accepting s _ h]

/-- A command's own work either raises a fault and nothing else, or leaves the fault as it was
(60_exceptions.md R110). -/
theorem work_raises_or_keeps (i : Instr) (s : State) :
    (∃ c, work i s = raise c s) ∨ (work i s).fault = s.fault := by
  cases i with
  | init =>
    by_cases h : s.ctrlState = .ready
    · exact .inl ⟨.alreadyInitialized, if_pos h⟩
    · exact .inr (by simp only [work, init, if_neg h, opened_fault]; rfl)
  | maxrate => exact .inr rfl
  | encode b => exact .inr rfl
  | ensure req => exact .inr (by simp [work, ensure])
  | drive =>
    by_cases h : s.ctrlState = .uninit
    · exact .inl ⟨.notInitialized, if_pos h⟩
    · exact .inr (by simp [work, drive, h])
  | send len =>
    simp only [work, send]
    split
    · exact .inl ⟨_, rfl⟩
    · split
      · exact .inl ⟨_, rfl⟩
      · split
        · exact .inl ⟨_, rfl⟩
        · exact .inr rfl
  | teardown => exact .inr (by simp [work, teardown])

/-! ### The frame buffer controller -/

/-- Everything `ensureCapacity` can do (41_framebuffer.md R74 to R79). -/
theorem ensureCapacity_cases (req : Nat) (s : State) :
    req = s.bufSize ∧ ensureCapacity req s = (.ok, s) ∨
    req ≠ s.bufSize ∧ req = 0 ∧ ensureCapacity req s = (.ok, reallocate 0 s) ∨
    req ≠ s.bufSize ∧ req ≠ 0 ∧ s.cfg.bufCapacity < req ∧
      ensureCapacity req s = (.allocationFailure, emit (.allocFail s.bufSize req) s) ∨
    req ≠ s.bufSize ∧ req ≠ 0 ∧ req ≤ s.cfg.bufCapacity ∧ allocAnswer s = true ∧
      ensureCapacity req s = (.ok, reallocate req (allocAsked s)) ∨
    req ≠ s.bufSize ∧ req ≠ 0 ∧ req ≤ s.cfg.bufCapacity ∧ allocAnswer s = false ∧
      ensureCapacity req s = (.allocationFailure, emit (.allocFail s.bufSize req) (allocAsked s)) := by
  unfold ensureCapacity
  by_cases h1 : req = s.bufSize
  · simp [h1]
  · by_cases h2 : req = 0
    · subst h2
      exact .inr (.inl ⟨h1, rfl, by rw [if_neg h1, if_pos rfl]⟩)
    · by_cases h3 : s.cfg.bufCapacity < req
      · simp [h1, h2, h3]
      · have h3' : req ≤ s.cfg.bufCapacity := by omega
        cases h4 : allocAnswer s <;> simp [h1, h2, h3, h3']

/-- The cells after a reallocation (41_framebuffer.md R76). -/
theorem reallocate_read (req : Nat) (s : State) (a : Nat) :
    (reallocate req s).buf.read a = if req - s.cfg.resetLen ≤ a ∧ a < req then some 0 else none := by
  rw [reallocate_buf, Memory.read_zeros]
  have h : req - s.cfg.resetLen + min req s.cfg.resetLen = req := by omega
  rw [h]

/-- The cells after a pixel write: its 24 slots and no other (40_encoder.md R72). -/
theorem putPixel_read (p : Nat) (b0 b1 b2 : Byte) (s : State) (a : Nat) :
    (putPixel p b0 b1 b2 s).buf.read a =
      if 24 * p ≤ a ∧ a < 24 * p + 24 then (pixelSymbols s.cfg b0 b1 b2)[a - 24 * p]? else s.buf.read a := by
  rw [putPixel_buf, Memory.read_writeBytes]
  rfl

theorem sym_mem (c : Config) (x : Bool) : sym c x = c.onePattern ∨ sym c x = c.zeroPattern := by
  cases x <;> simp [sym]

theorem mem_enc (c : Config) (b v : Byte) (h : v ∈ enc c b) : v = c.onePattern ∨ v = c.zeroPattern := by
  simp only [enc, List.mem_cons, List.not_mem_nil, or_false] at h
  rcases h with rfl | rfl | rfl | rfl | rfl | rfl | rfl | rfl <;> exact sym_mem c _

/-- Every byte of a pixel's 24 is a symbol (40_encoder.md R68). -/
theorem mem_pixelSymbols (c : Config) (b0 b1 b2 v : Byte) (h : v ∈ pixelSymbols c b0 b1 b2) :
    v = c.onePattern ∨ v = c.zeroPattern := by
  simp only [pixelSymbols, List.mem_append] at h
  rcases h with (h | h) | h <;> exact mem_enc c _ v h

@[simp] theorem pixelSymbols_length (c : Config) (b0 b1 b2 : Byte) : (pixelSymbols c b0 b1 b2).length = 24 := rfl

/-! ### Steps -/

/-- Everything a step that answers a next state can be (60_exceptions.md R113). -/
theorem step_cases (s t : State) (h : step s = .next t) :
    Live s ∧ ((∃ w i, hostMove s = some w ∧ decode w = .command i ∧ exec i (takeWord w s) = .next t) ∨
      (∃ w why, hostMove s = some w ∧ decode w = .illegal why ∧ t = raise .illegalCommand (takeWord w s)) ∨
      (hostMove s = none ∧ microStep (hostMoved s) = .next t)) := by
  unfold step at h
  cases hh : halted s with
  | some stop =>
    rw [hh] at h
    exact absurd (by rw [hh]; exact congrArg some h) (halted_ne_next s t)
  | none =>
    rw [hh] at h
    refine ⟨(halted_eq_none s).1 hh, ?_⟩
    cases hm : hostMove s with
    | none =>
      rw [hm] at h
      exact .inr (.inr ⟨rfl, h⟩)
    | some w =>
      rw [hm] at h
      cases hd : decode w with
      | command i =>
        simp only [hd] at h
        exact .inl ⟨w, i, rfl, hd, h⟩
      | illegal why =>
        simp only [hd, Host.Outcome.next.injEq] at h
        exact .inr (.inl ⟨w, why, rfl, hd, h.symm⟩)

/-- A step of a machine that has one, the Host silent. -/
theorem step_silent (s : State) (hl : Live s) (hm : hostMove s = none) : step s = microStep (hostMoved s) := by
  simp [step, halted_of_live s hl, hm, silentStep]

/-- A step of a machine that has one, the Host giving the word of a command. -/
theorem step_command (s : State) (w : Word) (i : Instr) (hl : Live s) (hm : hostMove s = some w)
    (hd : decode w = .command i) : step s = exec i (takeWord w s) := by
  simp [step, halted_of_live s hl, hm, hd]

/-- Everything phase D_PIXEL can do (43_controller.md R99). -/
theorem phaseDPixel_cases (s : State) :
    hasNextAnswer s = false ∧ phaseDPixel s = .next (mismatch (askHasNext s)) ∨
    hasNextAnswer s = true ∧ pixelFits (regI s) s = false ∧ phaseDPixel s = .fault .pixelOutsideBuffer ∨
    hasNextAnswer s = true ∧ pixelFits (regI s) s = true ∧ ∃ b0 b1 b2,
      b0 = scaledAnswer 0 (askHasNext s) ∧ b1 = scaledAnswer 1 (askHasNext s) ∧ b2 = scaledAnswer 2 (askHasNext s) ∧
      phaseDPixel s = .next (pixelDone (putPixel (regI s) b0 b1 b2 (takePixel b0 b1 b2 (askHasNext s)))) := by
  have hi : regI (askHasNext s) = regI s := rfl
  have hf : pixelFits (regI s) (askHasNext s) = pixelFits (regI s) s := rfl
  unfold phaseDPixel encodePixel
  cases h1 : hasNextAnswer s
  · simp
  · cases h2 : pixelFits (regI s) s
    · simp [hi, hf, h2]
    · refine .inr (.inr ⟨rfl, rfl, _, _, _, rfl, rfl, rfl, ?_⟩)
      simp only [hi, hf, h2, if_true]

/-- Everything phase S_BEGIN can do (42_transmit.md R85). -/
theorem phaseSBegin_cases (s : State) :
    s.buf.readBytes 0 (regSendLen s) = none ∧ phaseSBegin s = raise .undefinedRead s ∨
    ∃ bytes, s.buf.readBytes 0 (regSendLen s) = some bytes ∧
      (beginAnswer s = true ∧
          phaseSBegin s = writeIssued bytes (emit (.busBegin (busCfg s.cfg) true) (beginAsked s)) ∨
        beginAnswer s = false ∧
          phaseSBegin s = beginFailed (emit (.busBegin (busCfg s.cfg) false) (beginAsked s))) := by
  unfold phaseSBegin
  cases h1 : s.buf.readBytes 0 (regSendLen s) with
  | none => simp
  | some bytes => cases h2 : beginAnswer s <;> simp

/-- Everything phase S_WRITE can do (42_transmit.md R86, R88). -/
theorem phaseSWrite_cases (s : State) :
    s.env.busReq = none ∧ phaseSWrite s = s ∨
    ∃ bytes, s.env.busReq = some bytes ∧
      (writeAnswer s = none ∧ phaseSWrite s = writeAsked s ∨
        ∃ e ok, writeAnswer s = some (e, ok) ∧ phaseSWrite s = writeCompleted bytes e ok (writeAsked s)) := by
  unfold phaseSWrite
  cases h1 : s.env.busReq with
  | none => simp
  | some bytes =>
    cases h2 : writeAnswer s with
    | none => simp
    | some a => exact .inr ⟨bytes, rfl, .inr ⟨a.1, a.2, rfl, rfl⟩⟩

/-- A relation between a state and the next holds of every micro-step once it holds of each of its leaves. -/
theorem microStep_cases (R : State → State → Prop)
    (idle : ∀ s : State, s.phase = .idle → R s s)
    (size : ∀ s : State, s.phase = .dSize → R s (phaseDSize s))
    (alloc : ∀ s : State, s.phase = .dAlloc → R s (allocated (ensureCapacity (regReq s) s).2))
    (allocFailed : ∀ s : State, s.phase = .dAlloc →
      R s (finish (ensureCapacity (regReq s) s).1 (some (ensureCapacity (regReq s) s).2.bufSize) none
        (ensureCapacity (regReq s) s).2))
    (mismatched : ∀ s : State, s.phase = .dPixel ∨ s.phase = .dCheck → R s (mismatch (askHasNext s)))
    (pixel : ∀ (s : State) (b0 b1 b2 : Byte), s.phase = .dPixel → pixelFits (regI s) s = true →
      R s (pixelDone (putPixel (regI s) b0 b1 b2 (takePixel b0 b1 b2 (askHasNext s)))))
    (complete : ∀ s : State, s.phase = .dCheck → R s (frameComplete (askHasNext s)))
    (undef : ∀ s : State, s.phase = .sBegin → s.buf.readBytes 0 (regSendLen s) = none → R s (raise .undefinedRead s))
    (issued : ∀ (s : State) (bytes : List Byte), s.phase = .sBegin → s.buf.readBytes 0 (regSendLen s) = some bytes →
      R s (writeIssued bytes (emit (.busBegin (busCfg s.cfg) true) (beginAsked s))))
    (notBegun : ∀ s : State, s.phase = .sBegin →
      R s (beginFailed (emit (.busBegin (busCfg s.cfg) false) (beginAsked s))))
    (noWrite : ∀ s : State, s.phase = .sWrite → s.env.busReq = none → R s s)
    (hold : ∀ s : State, s.phase = .sWrite → R s (writeAsked s))
    (written : ∀ (s : State) (bytes : List Byte) (e : Nat) (ok : Bool), s.phase = .sWrite →
      s.env.busReq = some bytes → R s (writeCompleted bytes e ok (writeAsked s)))
    (closed : ∀ s : State, s.phase = .sEnd → R s (phaseSEnd s)) :
    ∀ s t : State, microStep s = .next t → R s t := by
  intro s t h
  unfold microStep at h
  cases hp : s.phase <;> rw [hp] at h <;> simp only at h
  case idle => cases h; exact idle _ hp
  case dSize => cases h; exact size _ hp
  case dAlloc =>
    cases h
    have h1 := alloc s hp
    have h2 := allocFailed s hp
    unfold phaseDAlloc
    split <;> rename_i heq <;> rw [heq] at h1 h2
    · exact h1
    · exact h2
  case dPixel =>
    rcases phaseDPixel_cases s with ⟨_, hh⟩ | ⟨_, _, hh⟩ | ⟨_, hf, _, _, _, _, _, _, hh⟩ <;> rw [h] at hh <;>
      cases hh
    · exact mismatched _ (.inl hp)
    · exact pixel _ _ _ _ hp hf
  case dCheck =>
    cases h
    unfold phaseDCheck
    split
    · exact mismatched _ (.inr hp)
    · exact complete _ hp
  case sBegin =>
    cases h
    rcases phaseSBegin_cases s with ⟨hb, h⟩ | ⟨_, hb, ⟨_, h⟩ | ⟨_, h⟩⟩ <;> rw [h]
    · exact undef _ hp hb
    · exact issued _ _ hp hb
    · exact notBegun _ hp
  case sWrite =>
    cases h
    rcases phaseSWrite_cases s with ⟨hb, h⟩ | ⟨_, hb, ⟨_, h⟩ | ⟨_, _, _, h⟩⟩ <;> rw [h]
    · exact noWrite _ hp hb
    · exact hold _ hp
    · exact written _ _ _ _ hp hb
  case sEnd => cases h; exact closed _ hp

/-- An invariant is kept by every step once it is kept by the parts of a step: the Host's move, the `Cmd` event, a
raised fault, a command's own work, and a phase's micro-step. -/
theorem step_preserves (P : State → Prop)
    (moved : ∀ s, P s → P (hostMoved s))
    (given : ∀ s w, P s → P (emit (.cmd w) s))
    (raised : ∀ s c, P s → P (raise c s))
    (worked : ∀ s i, Accepting s → P s → P (work i s))
    (micro : ∀ s t, Live s → P s → microStep s = .next t → P t)
    (s t : State) (hs : P s) (h : step s = .next t) : P t := by
  obtain ⟨hl, ⟨w, i, _, _, h⟩ | ⟨w, why, _, _, rfl⟩ | ⟨_, h⟩⟩ := step_cases s t h
  · have hp : P (takeWord w s) := given _ w (moved s hs)
    obtain ⟨hl', ⟨_, rfl⟩ | ⟨_, rfl⟩ | ⟨hc, rfl⟩⟩ := exec_cases i _ t h
    · exact raised _ _ hp
    · exact raised _ _ hp
    · exact worked _ i ⟨hl', hc⟩ hp
  · exact raised _ _ (given _ w (moved s hs))
  · exact micro (hostMoved s) t hl (moved s hs) h

end Sys2Proof.Machine
end

