-- ==== Sys2Proof/Laws/PerInstr.lean ====
section
/-! SUPPORT. Families of statements about every command as syntax, one lemma per constructor. -/

namespace Sys2Proof.Laws.WordShape

/-- The word of a command has its opcode number in OP and 0 in RSV (30_encoding.md R61, R62). -/
def Statement (i : Instr) : Prop := opField (Sys2Proof.encode i) = opcode i ∧ rsvField (Sys2Proof.encode i) = 0

theorem fields_of_parts (hi : BitVec 24) (op : BitVec 4) :
    opField (hi ++ (0 : BitVec 4) ++ op) = op ∧ rsvField (hi ++ (0 : BitVec 4) ++ op) = 0 := by
  constructor
  · ext k hk
    simp only [opField, BitVec.getElem_extractLsb', BitVec.getLsbD_append]
    rw [if_pos (by omega), Nat.zero_add, BitVec.getLsbD_eq_getElem]
  · ext k hk
    simp only [rsvField, BitVec.getElem_extractLsb', BitVec.getLsbD_append]
    rw [if_neg (by omega), if_pos (by omega)]
    simp

theorem init : Statement .init := fields_of_parts _ _
theorem maxrate : Statement .maxrate := fields_of_parts _ _
theorem encode (b : Byte) : Statement (.encode b) := fields_of_parts _ _
theorem ensure (req : Nat) : Statement (.ensure req) := fields_of_parts _ _
theorem drive : Statement .drive := fields_of_parts _ _
theorem send (len : Nat) : Statement (.send len) := fields_of_parts _ _
theorem teardown : Statement .teardown := fields_of_parts _ _

end Sys2Proof.Laws.WordShape
end

