-- ==== Sys2Proof/Machine/Timing.lean ====
section
/-! DEFINITION. The informational durations of 70_reset_and_hazards.md R134 and R135. No step reads them: the model
measures no time (00_scope.md R20). -/

namespace Sys2Proof.Machine

/-- The bus bits of a frame of `n` pixels, tail included (70_reset_and_hazards.md R135). -/
def frameBusBits (c : Config) (n : Nat) : Nat := frameSize c n * 8

/-- The duration of `bits` bus bits in seconds (70_reset_and_hazards.md R134). -/
def busSeconds (c : Config) (bits : Nat) : ℚ := bits / c.busClockHz

/-- The duration of one symbol byte, one LED data bit (70_reset_and_hazards.md R134). -/
def symbolSeconds (c : Config) : ℚ := busSeconds c 8

/-- How long a frame of `n` pixels occupies the line (70_reset_and_hazards.md R135). -/
def frameSeconds (c : Config) (n : Nat) : ℚ := busSeconds c (frameBusBits c n)

end Sys2Proof.Machine
end

