-- ==== Sys2Proof/Tests/Slice0.lean ====
section
/-! SUPPORT. Tests of one step each, their expected values taken from 95_test_vectors.md, and a witness for every
obligation that has hypotheses. -/

namespace Sys2Proof.Tests

open Sys2Proof.Machine

/-! ### Small states -/

/-- What a next state shows; `none` where there is none. -/
def seen {α : Type} (view : State → α) : Out → Option α
  | .next s => some (view s)
  | _ => none

/-- The reset state with other scripts of the agents. -/
def scripted (e : Env) : State := { State.reset with env := e }

/-- READY after INIT, owning a buffer with the given cells. -/
def readyWith (size : Nat) (buf : Memory) (e : Env) : State :=
  { State.reset with ctrlState := .ready, busHeld := true, bufSize := size, buf := buf, env := e }

/-- READY with no buffer. -/
def ready : State := readyWith 0 [] Env.unscripted

/-- The agents all answer ok, once. -/
def allOk : Env :=
  { Env.unscripted with opens := [true], begins := [true], writes := [some (2, true)], allocs := [true] }

/-- A configuration with a tail of two bytes and room for one pixel. -/
def small : Config := { Config.reference with resetLen := 2, bufCapacity := 26 }

/-- Two cells, both zero: a frame of no pixels under `small`. -/
def tailCells : Memory := [(0, 0), (1, 0)]

/-- In the middle of a DRIVE of no pixels under `small`, in a given phase. -/
def driving (p : Phase) (e : Env) : State :=
  { State.instantiate small with
    ctrlState := .transmitting, busHeld := true, bufSize := 2, buf := tailCells, cmd := some .drive, phase := p,
    n := some 0, req := some 2, i := some 0, sendLen := some 2, begun := some true, wrOk := some true,
    allocCount := 1, env := e }

/-- In phase D_PIXEL of a DRIVE of one pixel under `small`, nothing encoded yet. -/
def encoding (e : Env) : State :=
  { driving .dPixel e with bufSize := 26, buf := [(24, 0), (25, 0)], n := some 1, req := some 26 }

/-- The pixel (FF, 00, 81) of 95_test_vectors.md E5, then no other. -/
def onePixel : Env :=
  { allOk with sizes := [1], nexts := [true, false], scaled := [0xFF, 0x00, 0x81] }

/-- A torn-down instance. -/
def tornDown : State := { State.reset with ctrlState := .tornDown }

/-! ### Well-formedness: an ill-formed term for each check (30_encoding.md R60) -/

theorem test_wf_ensure : Instr.wf (.ensure 16777215) = true ∧ Instr.wf (.ensure 16777216) = false := by decide
theorem test_wf_send : Instr.wf (.send 16777215) = true ∧ Instr.wf (.send 16777216) = false := by decide

/-! ### Decoding: the words of 95_test_vectors.md 2.1 -/

theorem test_decode_init : decode 0x00000001 = .command .init ∧ encode .init = 0x00000001 := by decide
theorem test_decode_maxrate : decode 0x00000002 = .command .maxrate ∧ encode .maxrate = 0x00000002 := by decide
theorem test_decode_encode : decode 0x00008103 = .command (.encode 0x81) ∧
    decode 0x0000FF03 = .command (.encode 0xFF) ∧ encode (.encode 0x81) = 0x00008103 := by decide
theorem test_decode_ensure : decode 0x00000004 = .command (.ensure 0) ∧
    decode 0x00002204 = .command (.ensure 34) ∧ decode 0xFFFFFF04 = .command (.ensure 16777215) ∧
    encode (.ensure 34) = 0x00002204 := by decide
theorem test_decode_drive : decode 0x00000005 = .command .drive ∧ encode .drive = 0x00000005 := by decide
theorem test_decode_send : decode 0x00002206 = .command (.send 34) ∧
    decode 0xFFFFFF06 = .command (.send 16777215) ∧ encode (.send 34) = 0x00002206 := by decide
theorem test_decode_teardown : decode 0x00000007 = .command .teardown ∧ encode .teardown = 0x00000007 := by decide

theorem test_decode_illegal_opcode : decode 0x00000000 = .illegal .opcode ∧ decode 0x00000008 = .illegal .opcode ∧
    decode 0x0000000F = .illegal .opcode := by decide
theorem test_decode_illegal_operand : decode 0x00010003 = .illegal .operandBits ∧
    decode 0x00000105 = .illegal .operandBits ∧ decode 0x80000007 = .illegal .operandBits := by decide
theorem test_decode_illegal_reserved : decode 0x00000011 = .illegal .reservedBits ∧
    decode 0x000000F6 = .illegal .reservedBits ∧ decode 0xFFFFFFFF = .illegal .reservedBits := by decide

theorem test_table_word : decodeTableWord 32 0x00008103 = some (.encode 0x81) ∧
    decodeTableWord 32 0x00000008 = none := by decide

/-! ### The assembler (30_encoding.md R67) -/

theorem test_assemble : assemble ['E', 'N', 'C', 'O', 'D', 'E', ' ', '0', 'x', '8', '1'] = some 0x00008103 ∧
    assemble ['S', 'E', 'N', 'D', ' ', '3', '4'] = some 0x00002206 ∧
    assemble ['I', 'N', 'I', 'T'] = some 0x00000001 := by decide

theorem test_assemble_out_of_range :
    assemble ['E', 'N', 'C', 'O', 'D', 'E', ' ', '2', '5', '6'] = none ∧
    assemble ['S', 'E', 'N', 'D', ' ', '1', '6', '7', '7', '7', '2', '1', '6'] = none ∧
    assemble ['I', 'N', 'I', 'T', ' ', '0'] = none := by decide

/-! ### The numbers of the codes (60_exceptions.md R108, R109; 10_state.md R24) -/

theorem test_result_codes : ResultCode.ok.code = 0x00 ∧ ResultCode.allocationFailure.code = 0x01 ∧
    ResultCode.busUnavailable.code = 0x02 ∧ ResultCode.streamLengthMismatch.code = 0x03 := by decide

theorem test_fault_codes : FaultCode.illegalCommand.code = 0x10 ∧ FaultCode.notInitialized.code = 0x11 ∧
    FaultCode.alreadyInitialized.code = 0x12 ∧ FaultCode.overlap.code = 0x13 ∧
    FaultCode.bufferOverrun.code = 0x14 ∧ FaultCode.undefinedRead.code = 0x15 ∧
    FaultCode.afterTeardown.code = 0x16 := by decide

/-! ### One command each -/

/-- V-CTL-1. -/
theorem test_init_ok : seen (fun t => (t.ctrlState, t.busHeld, t.events)) (exec .init (scripted allOk)) =
    some (.ready, true, [.busOpen true, .resp { code := .ok, value := none, symbols := none }]) := by decide

/-- V-CTL-2. -/
theorem test_init_fails :
    seen (fun t => (t.ctrlState, t.busHeld, t.status)) (exec .init (scripted { allOk with opens := [false] })) =
    some (.uninit, false, .busUnavailable) := by decide

/-- V-CTL-4, through the Host's word. -/
theorem test_maxrate_word : seen (fun t => (t.resp, t.events)) (step (State.reset.withFetchWord 32 0x00000002)) =
    some (some { code := .ok, value := some 400, symbols := none },
      [.cmd 0x00000002, .resp { code := .ok, value := some 400, symbols := none }]) := by decide

/-- V-ENC-4. -/
theorem test_encode_a5 : seen (fun t => t.resp) (exec (.encode 0xA5) State.reset) =
    some (some ⟨.ok, none, some [0xFC, 0xC0, 0xFC, 0xC0, 0xC0, 0xFC, 0xC0, 0xFC]⟩) := by decide

/-- V-ENC-9. -/
theorem test_encode_other_patterns :
    seen (fun t => t.resp) (exec (.encode 0x81)
      (State.instantiate { Config.reference with onePattern := 0xAA, zeroPattern := 0x55 })) =
    some (some ⟨.ok, none, some [0xAA, 0x55, 0x55, 0x55, 0x55, 0x55, 0x55, 0xAA]⟩) := by decide

/-- V-ENS-1. -/
theorem test_ensure_34 :
    seen (fun t => (t.buf.read 23, t.buf.read 24, t.buf.read 33, t.buf.read 34))
      (exec (.ensure 34) (scripted allOk)) = some (none, some 0, some 0, none) ∧
    seen (fun t => (t.bufSize, t.allocCount, t.events)) (exec (.ensure 34) (scripted allOk)) =
      some (34, 1, [.alloc 0 34, .resp { code := .ok, value := some 34, symbols := none }]) := by decide

/-- V-ENS-8: no draw, and the buffer as it was. -/
theorem test_ensure_over_capacity :
    seen (fun t => (t.bufSize, t.status, t.events, t.env.allocs))
      (exec (.ensure 101) { State.instantiate { Config.reference with bufCapacity := 100 } with env := allOk }) =
    some (0, .allocationFailure,
      [.allocFail 0 101, .resp { code := .allocationFailure, value := some 0, symbols := none }], [true]) := by decide

/-- R96, and V-CTL-5. -/
theorem test_drive : seen (fun t => (t.ctrlState, t.phase, t.cmd)) (exec .drive ready) =
      some (.transmitting, .dSize, some .drive) ∧
    seen (fun t => (t.fault, t.phase, t.cmd)) (exec .drive State.reset) =
      some (some .notInitialized, .idle, none) := by decide

/-- V-SND-4 and V-SND-5: the order of SEND's own checks. -/
theorem test_send_checks :
    seen (fun t => t.fault) (exec (.send 34) (readyWith 34 (Memory.zeros 24 10) allOk)) = some (some .undefinedRead) ∧
    seen (fun t => t.fault) (exec (.send 35) (readyWith 34 (Memory.zeros 24 10) allOk)) =
      some (some .bufferOverrun) := by decide

/-- V-SND-2, its acceptance: a length of 0 is accepted with no buffer. -/
theorem test_send_nothing : seen (fun t => (t.ctrlState, t.phase, t.sendLen, t.fault)) (exec (.send 0) ready) =
    some (.transmitting, .sBegin, some 0, none) := by decide

/-- V-TDN-1. -/
theorem test_teardown :
    seen (fun t => (t.ctrlState, t.busHeld, t.bufSize, t.buf.read 24))
      (exec .teardown (readyWith 34 (Memory.zeros 24 10) allOk)) = some (.tornDown, false, 0, none) ∧
    seen (fun t => t.events) (exec .teardown (readyWith 34 (Memory.zeros 24 10) allOk)) =
      some [.release 34, .resp { code := .ok, value := none, symbols := none }] := by decide

/-- V-TDN-2: nothing to release. -/
theorem test_teardown_nothing : seen (fun t => t.events) (exec .teardown State.reset) =
    some [.resp { code := .ok, value := none, symbols := none }] := by decide

/-! ### Faults and priority (95_test_vectors.md 2.6) -/

/-- V-PRI-1 and V-PRI-2: an illegal word before the lifecycle state. -/
theorem test_illegal_word_first :
    seen (fun t => (t.fault, t.events)) (step (tornDown.withFetchWord 32 0)) =
      some (some .illegalCommand, [.cmd 0, .fault .illegalCommand]) ∧
    seen (fun t => t.fault) (step ((driving .sWrite allOk).withFetchWord 32 0x11)) =
      some (some .illegalCommand) := by decide

/-- V-PRI-4 and V-PRI-5. -/
theorem test_lifecycle_before_own_checks :
    seen (fun t => t.fault) (exec .maxrate (driving .dSize allOk)) = some (some .overlap) ∧
    seen (fun t => t.fault) (exec .drive tornDown) = some (some .afterTeardown) := by decide

/-- V-PRI-7 and V-PRI-8, V-ENC-11, V-ENC-12. -/
theorem test_no_step :
    step ({ State.reset with fault := some .notInitialized }.withFetchWord 32 1) =
      .fault (.quiescent .notInitialized) ∧
    step (State.instantiate { Config.reference with onePattern := 0xC0 }) = .refused .configPatternsEqual ∧
    step (State.instantiate { Config.reference with flip := true }) = .refused .configFlip := by
  exact ⟨rfl, rfl, rfl⟩

/-! ### One phase each -/

/-- R97, V-DRV-1's `SrcSize(1)`. -/
theorem test_phase_size :
    seen (fun t => (t.n, t.req, t.phase)) (step { driving .dSize onePixel with cfg := Config.reference }) =
    some (some 1, some 34, .dAlloc) := by decide

/-- R99: the events of V-DRV-1's pixel, its last symbols and the tail beside them (95_test_vectors.md, E5). -/
theorem test_phase_pixel :
    seen (fun t => (t.buf.read 0, t.buf.read 8, t.buf.read 16, t.buf.read 17, t.buf.read 23, t.buf.read 24))
      (step (encoding onePixel)) =
      some (some 0xFC, some 0xC0, some 0xFC, some 0xC0, some 0xFC, some 0) ∧
    seen (fun t => (t.i, t.phase, t.events)) (step (encoding onePixel)) =
      some (some 1, .dCheck, [.srcHasNext true, .srcByte 0 0xFF, .srcByte 1 0x00, .srcByte 2 0x81, .srcAdvance,
        .srcDither]) := by decide

/-- V-DRV-5, its last step: a pixel too many. -/
theorem test_phase_check_extra :
    seen (fun t => (t.ctrlState, t.phase, t.resp)) (step (driving .dCheck { allOk with nexts := [true] })) =
    some (.ready, .idle, some { code := .streamLengthMismatch, value := some 2, symbols := none }) := by decide

/-- R86: the write completes; V-SND-12: it does not, and the block holds. -/
theorem test_phase_write :
    seen (fun t => (t.phase, t.events)) (step (driving .sWrite { allOk with busReq := some [0, 0] })) =
      some (.sEnd, [.busWrite [0, 0] 2 true]) ∧
    seen (fun t => (t.phase, t.events))
      (step (driving .sWrite { allOk with busReq := some [0, 0], writes := [none] })) =
      some (.sWrite, []) := by decide

/-- V-SND-11: only the emitted bytes reach the line. -/
theorem test_line : lineBits [0xFC, 0xC0] 1 = [true, true, true, true, true, true, false, false] := by decide

/-- The words of R134 and R135 at the nominal clock: 1250 ns for a symbol, 12.5 us for the reference tail. -/
theorem test_timing : symbolSeconds Config.reference = 1250 / 1000000000 ∧
    frameSeconds Config.reference 0 = 125 / 10000000 := by
  constructor <;> norm_num [symbolSeconds, frameSeconds, frameBusBits, busSeconds, frameSize, Config.reference]

/-! ### Witnesses: for every obligation with hypotheses, states and operands that meet them -/

theorem witness_DecodeByFields :
    (0x11 : Word).toNat / 16 % 16 ≠ 0 ∧
    ((0x0000FF03 : Word).toNat % 16 = 3 ∧ (0x0000FF03 : Word).toNat / 256 = 255) ∧
    ((0x00010003 : Word).toNat % 16 = 3 ∧ (0x00010003 : Word).toNat / 256 = 256) ∧
    ((0xFFFFFF04 : Word).toNat % 16 = 4 ∧ (0xFFFFFF06 : Word).toNat % 16 = 6) ∧
    ((1 : Word).toNat % 16 = 1 ∧ (2 : Word).toNat % 16 = 2 ∧ (5 : Word).toNat % 16 = 5 ∧ (7 : Word).toNat / 256 = 0) ∧
    ((0x00000105 : Word).toNat % 16 = 5 ∧ (0x00000105 : Word).toNat / 256 ≠ 0) ∧
    ((0 : Word).toNat % 16 = 0 ∧ 8 ≤ (0x8 : Word).toNat % 16 ∧ 8 ≤ (0xF : Word).toNat % 16) := by decide

theorem witness_MatchAndMaskSelectTheCommand : (0x0000FF03 : Word) &&& 0xFFFF00FF = 0x00000003 ∧
    (0xFFFFFF04 : Word) &&& 0x000000FF = 0x00000004 ∧ (0xFFFFFF06 : Word) &&& 0x000000FF = 0x00000006 := by decide

theorem witness_DecodeOfEncode : Instr.wf (.send 16777215) = true ∧ Instr.wf (.encode 0xFF) = true := by decide

theorem witness_EncodeOfDecode : decode 0xFFFFFF06 = .command (.send 16777215) := by decide

theorem witness_AssembledOperandsAreInRange :
    assembleParts ['E', 'N', 'C', 'O', 'D', 'E'] (some 255) = some (.encode 0xFF) ∧
    assembleParts ['E', 'N', 'C', 'O', 'D', 'E'] (some 256) = none ∧
    assembleParts ['E', 'N', 'S', 'U', 'R', 'E'] (some 16777215) = some (.ensure 16777215) ∧
    assembleParts ['E', 'N', 'S', 'U', 'R', 'E'] (some 16777216) = none ∧
    assembleParts ['S', 'E', 'N', 'D'] (some 16777215) = some (.send 16777215) ∧
    assembleParts ['S', 'E', 'N', 'D'] (some 16777216) = none ∧
    assembleParts ['D', 'R', 'I', 'V', 'E'] none = some .drive ∧
    assembleParts ['D', 'R', 'I', 'V', 'E'] (some 0) = none ∧
    ' ' ∉ ['S', 'E', 'N', 'D'] := by decide

theorem witness_StepRunsTheDecodedCommand :
    Live (State.reset.withFetchWord 32 0x00008103) ∧
    (State.reset.withFetchWord 32 0x00008103).env.host = some 0x00008103 :: [] ∧
    decode 0x00008103 = .command (.encode 0x81) := by decide

theorem witness_IllegalWordFaults : Live (State.reset.withFetchWord 32 0x00010003) ∧
    decode 0x00010003 = .illegal .operandBits ∧
    (State.reset.withFetchWord 32 0x00010003).env.host = some 0x00010003 :: [] ∧
    (0 : Word).toNat % 16 = 0 ∧ 8 ≤ (0x8 : Word).toNat % 16 ∧ (0x11 : Word).toNat / 16 % 16 ≠ 0 ∧
    (256 ≤ (0x00000105 : Word).toNat ∧ (0x00000105 : Word).toNat % 16 = 5) ∧
    (65536 ≤ (0x00010003 : Word).toNat ∧ (0x00010003 : Word).toNat % 16 = 3) := by decide

theorem witness_SilentHostRunsThePhase : Live State.reset ∧ State.reset.env.host = [] ∧
    (scripted { allOk with host := [none] }).env.host = none :: [] := by decide

theorem witness_RaisedFaultWritesNothingElse :
    (Sequenced (State.reset.withFetchWord 32 5) ∧
      ∃ t, step (State.reset.withFetchWord 32 5) = .next t ∧ t.fault = some .notInitialized) ∧
    { State.reset with fault := some .overlap }.refused = false :=
  ⟨⟨trivial, _, rfl, rfl⟩, rfl⟩

theorem witness_AcceptanceChecksInOrder :
    (State.reset.withFetchWord 32 5).env.host = some 0x00000005 :: [] := rfl

theorem witness_RefusedInstanceNeverSteps :
    (State.instantiate { Config.reference with flip := true }).refused = true ∧
    (State.instantiate { Config.reference with onePattern := 0xC0 }).refused = true ∧
    (State.instantiate { Config.reference with onePattern := 0xC0 }).refused =
      !{ Config.reference with onePattern := 0xC0 }.admitted := by decide

theorem witness_TornDownAndBusyFault : (Live tornDown ∧ tornDown.ctrlState = .tornDown) ∧
    Live (driving .sWrite allOk) ∧ (driving .sWrite allOk).ctrlState = .transmitting := by decide

theorem witness_LifecycleFaults : (Live ready ∧ ready.ctrlState = .ready) ∧
    Live State.reset ∧ State.reset.ctrlState = .uninit := by decide

theorem witness_LifecycleTable : Live State.reset ∧ Live ready ∧ Live (driving .dPixel allOk) ∧ Live tornDown := by
  decide

theorem witness_SlotsTileTheEncodedRegion : (0 < 1 ∧ 2 < 3 ∧ 7 < 8 ∧ slot 0 2 7 = 23) ∧ slot 1 0 0 = 24 := by decide

theorem witness_SymbolsDecodeToTheirByte : Config.reference.onePattern ≠ Config.reference.zeroPattern := by decide

/-- Also of MaxrateAnswers400, EnsureSameSizeKeepsTheBuffer and TeardownReleasesEverything. -/
theorem witness_EncodeAnswersTheSymbols :
    Accepting State.reset ∧ Accepting ready ∧ Accepting (readyWith 34 (Memory.zeros 24 10) allOk) := by decide

theorem witness_EnsureReplacesTheAllocation : Accepting (scripted allOk) ∧ 16777215 ≠ (scripted allOk).bufSize ∧
    16777215 ≤ (scripted allOk).cfg.bufCapacity ∧ allocAnswer (scripted allOk) = true ∧
    (Accepting (readyWith 2 tailCells allOk) ∧ 1 ≠ (readyWith 2 tailCells allOk).bufSize) := by decide

theorem witness_EnsureZeroReleases :
    Accepting (readyWith 2 tailCells allOk) ∧ (readyWith 2 tailCells allOk).bufSize ≠ 0 := by decide

theorem witness_FailedAllocationRetainsTheState : (ensureCapacity 16777216 ready).1 ≠ .ok ∧
    (ensureCapacity 26 (readyWith 2 tailCells { allOk with allocs := [false] })).1 ≠ .ok := by decide

theorem witness_EnsureFailureRetainsTheBuffer :
    (Accepting ready ∧ ready.cfg.bufCapacity < 16777216) ∧
    Accepting (readyWith 2 tailCells { allOk with allocs := [false] }) ∧
    allocAnswer (readyWith 2 tailCells { allOk with allocs := [false] }) = false := by decide

theorem witness_InitTakesTheHandle : Live (scripted allOk) ∧ (scripted allOk).ctrlState = .uninit ∧
    openAnswer (scripted allOk) = true ∧ openAnswer (scripted { allOk with opens := [false] }) = false := by decide

theorem witness_DriveIsAccepted : Live ready ∧ ready.ctrlState = .ready := by decide

theorem witness_SendIsAccepted : Live (readyWith 2 tailCells allOk) ∧ 2 ≤ (readyWith 2 tailCells allOk).bufSize ∧
    DefinedBelow (readyWith 2 tailCells allOk) 2 ∧ DefinedBelow ready 0 := by
  unfold DefinedBelow
  decide

theorem witness_SendOperandFaults : Live (readyWith 34 (Memory.zeros 24 10) allOk) ∧
    (readyWith 34 (Memory.zeros 24 10) allOk).bufSize < 35 ∧
    34 ≤ (readyWith 34 (Memory.zeros 24 10) allOk).bufSize ∧
    (23 < 34 ∧ (readyWith 34 (Memory.zeros 24 10) allOk).buf.read 23 = none) := by decide

theorem witness_SizePhaseComputesTheFrame : (driving .dSize onePixel).phase = .dSize := rfl

theorem witness_AllocPhaseKeepsAnEqualFrame :
    (driving .dAlloc allOk).n = some 0 ∧ (driving .dAlloc allOk).req = some (driving .dAlloc allOk).bufSize ∧
    (encoding allOk).n = some 1 ∧ (encoding allOk).req = some (encoding allOk).bufSize := by decide

theorem witness_AllocPhaseReplacesTheFrame :
    ({ driving .dAlloc allOk with req := some 26 }.bufSize ≠ 26 ∧ 26 ≤ small.bufCapacity ∧
      allocAnswer { driving .dAlloc allOk with req := some 26 } = true) ∧
    { driving .dAlloc allOk with req := some 0 }.bufSize ≠ 0 := by decide

theorem witness_AllocPhaseFailureEndsTheCycle :
    (driving .dAlloc allOk).ctrlState = .transmitting ∧ 27 ≠ (driving .dAlloc allOk).bufSize ∧
    (driving .dAlloc allOk).cfg.bufCapacity < 27 ∧
    allocAnswer (driving .dAlloc { allOk with allocs := [false] }) = false := by decide

theorem witness_PixelPhaseEncodesOnePixel :
    (encoding onePixel).phase = .dPixel ∧ (encoding onePixel).n = some 1 ∧ (encoding onePixel).i = some 0 ∧
    hasNextAnswer (encoding onePixel) = true ∧
    24 * (0 + 1) ≤ (encoding onePixel).bufSize - (encoding onePixel).cfg.resetLen := by decide

theorem witness_StreamMismatchEndsTheCycle :
    (encoding { allOk with nexts := [false] }).ctrlState = .transmitting ∧
    hasNextAnswer (encoding { allOk with nexts := [false] }) = false ∧
    hasNextAnswer (driving .dCheck { allOk with nexts := [true] }) = true := by decide

theorem witness_CheckPhaseStartsTheSend : (driving .dCheck { allOk with nexts := [false] }).phase = .dCheck ∧
    hasNextAnswer (driving .dCheck { allOk with nexts := [false] }) = false := by decide

theorem witness_BeginPhaseIssuesTheSnapshot :
    (driving .sBegin allOk).sendLen = some 2 ∧ DefinedBelow (driving .sBegin allOk) 2 ∧
    beginAnswer (driving .sBegin allOk) = true := by
  unfold DefinedBelow
  decide

theorem witness_BeginPhaseFailureEndsTheCommand :
    DefinedBelow (driving .sBegin { allOk with begins := [false] }) 2 ∧
    beginAnswer (driving .sBegin { allOk with begins := [false] }) = false ∧
    (driving .sBegin { allOk with begins := [false] }).cmd = some .drive ∧
    { driving .sBegin { allOk with begins := [false] } with cmd := some (.send 2) }.cmd = some (.send 2) := by
  unfold DefinedBelow
  decide

theorem witness_WritePhaseWaitsForTheBus :
    (driving .sWrite { allOk with busReq := some [0, 0] }).env.busReq = some [0, 0] ∧
    writeAnswer (driving .sWrite { allOk with busReq := some [0, 0] }) = some (2, true) ∧
    writeAnswer (driving .sWrite { allOk with busReq := some [0, 0], writes := [none] }) = none := by decide

theorem witness_EndPhaseClosesTheTransaction :
    (driving .sEnd allOk).ctrlState = .transmitting ∧ (driving .sEnd allOk).sendLen = some 2 ∧
    (driving .sEnd allOk).wrOk = some true ∧ (driving .sEnd allOk).cmd = some .drive ∧
    { driving .sEnd allOk with wrOk := some false, cmd := some (.send 2) }.cmd = some (.send 2) := by decide

theorem witness_SendKeepsHandleAndBuffer :
    (driving .sEnd allOk).ctrlState = .transmitting ∧ (∃ t, microStep (driving .sEnd allOk) = .next t) ∧
    ∃ t, microStep (driving .sBegin { allOk with begins := [false] }) = .next t :=
  ⟨rfl, ⟨_, rfl⟩, _, rfl⟩

theorem witness_LineCarriesTheBytesMsbFirst : (1 ≤ [(0xFC : Byte)].length ∧ 0 ≤ ([] : List Byte).length) ∧
    (emit (.busWrite [0xFC] 1 true) ready).events = ready.events ++ [.busWrite [0xFC] 1 true] ∧
    (emit .busEnd ready).events = ready.events ++ [.busEnd] := by decide

/-- V-SND-11 in small: a short write puts only its emitted bytes on the line. -/
theorem witness_OnlyACompletedWriteReachesTheLine :
    let s : State := driving .sWrite { allOk with busReq := some [0xFC, 0xC0], writes := [some (1, true)] }
    (hostMove s = none ∧ s.phase = .sWrite ∧ s.env.busReq = some [0xFC, 0xC0] ∧ writeAnswer s = some (1, true)) ∧
    seen line (step s) = some [true, true, true, true, true, true, false, false] ∧
    (∃ t, step (driving .sEnd allOk) = .next t) ∧ (driving .sEnd allOk).phase ≠ .sWrite :=
  ⟨⟨rfl, rfl, rfl, rfl⟩, rfl, ⟨_, rfl⟩, by decide⟩

/-- In S_WRITE of a DRIVE of no pixels, with the history that led there: the state the invariants describe. -/
def sending : State :=
  { driving .sWrite { allOk with busReq := some [0, 0] } with
    events := [.cmd 0x00000005, .srcSize 0, .alloc 0 2, .srcHasNext false, .busBegin (busCfg small) true]
    resp := some { code := .ok, value := none, symbols := none } }

/-- A premise of StepKeepsTheLifecycle and of OnlyTheListedTransitions. -/
theorem witness_StepKeepsTheLifecycle : Lifecycle sending ∧ ∃ t, step sending = .next t :=
  ⟨⟨by decide, by decide, by decide, by decide⟩, _, rfl⟩

theorem sending_tail : Tail sending := by
  intro a _ h
  have h' : a < 2 := h
  interval_cases a <;> rfl

theorem witness_StepKeepsTailAndStorage : (Tail sending ∧ Storage sending) ∧ ∃ t, step sending = .next t := by
  refine ⟨⟨sending_tail, rfl, fun a h => ?_, fun a h => absurd h (Nat.not_lt_zero a)⟩, _, rfl⟩
  have h' : 2 ≤ a := h
  have h0 : ¬(0 = a) := by omega
  have h1 : ¬(1 = a) := by omega
  simp [sending, driving, tailCells, Memory.read, h0, h1]

theorem sending_sequenced : Sequenced sending := by
  refine ⟨⟨2, rfl, by decide, ?_, .inr ⟨rfl, rfl⟩⟩, rfl, [0, 0], rfl, rfl⟩
  unfold DefinedBelow
  decide

theorem witness_StepKeepsTheSequence : (Tail sending ∧ Sequenced sending) ∧ ∃ t, step sending = .next t :=
  ⟨⟨sending_tail, sending_sequenced⟩, _, rfl⟩

theorem witness_StepKeepsTheBusDiscipline : (Lifecycle sending ∧ Disciplined sending) ∧ ∃ t, step sending = .next t :=
  ⟨⟨witness_StepKeepsTheLifecycle.1, rfl⟩, _, rfl⟩

theorem witness_StepKeepsOwnership : Owned sending ∧ ∃ t, step sending = .next t := ⟨⟨rfl, rfl⟩, _, rfl⟩

theorem witness_StepKeepsResponseAndBusCfg :
    (Responded sending ∧ FixedBusCfg sending) ∧ ∃ t, step sending = .next t := by
  refine ⟨⟨?_, ?_⟩, _, rfl⟩
  · intro r h
    cases h
    rfl
  · intro cfg ok h
    simp only [sending, List.mem_cons, reduceCtorEq, Event.busBegin.injEq, List.not_mem_nil, false_or, or_false] at h
    exact h.1

theorem witness_StepOnlyAddsToTheHistory : ∃ t, step sending = .next t := ⟨_, rfl⟩

theorem witness_OnlyInitAndTeardownMoveTheHandle :
    (∃ t, step ((scripted allOk).withFetchWord 32 1) = .next t ∧
      t.busHeld ≠ ((scripted allOk).withFetchWord 32 1).busHeld) ∧
    ∃ t, step (ready.withFetchWord 32 7) = .next t ∧ t.busHeld ≠ (ready.withFetchWord 32 7).busHeld :=
  ⟨⟨_, rfl, by decide⟩, _, rfl, by decide⟩

theorem witness_BufferFrame : (∃ t, step (driving .dAlloc allOk) = .next t) ∧ ∃ t, step sending = .next t :=
  ⟨⟨_, rfl⟩, _, rfl⟩

theorem witness_SourceIsAskedOnlyInADriveCycle :
    (∃ t, step (driving .dSize onePixel) = .next t ∧ t.env.sizes ≠ (driving .dSize onePixel).env.sizes ∧
      t.events.countP Event.isSource ≠ (driving .dSize onePixel).events.countP Event.isSource) ∧
    (∃ t, step (driving .dCheck onePixel) = .next t ∧ t.env.nexts ≠ (driving .dCheck onePixel).env.nexts) ∧
    seen (fun t => t.env.scaled) (step (encoding onePixel)) = some [] ∧ (encoding onePixel).env.scaled ≠ [] :=
  ⟨⟨_, rfl, by decide, by decide⟩, ⟨_, rfl, by decide⟩, by decide, by decide⟩

theorem witness_SilentStepNeverFaults : Live sending ∧ Sequenced sending ∧ hostMove sending = none :=
  ⟨by decide, sending_sequenced, rfl⟩

theorem witness_BookkeepingIsNeverRead :
    unread sending = unread { sending with status := .busUnavailable, allocCount := 7, events := [] } := rfl

/-- The agents of V-DRV-1 under `small`, the Host giving DRIVE and then waiting. -/
def driveEnv : Env :=
  { onePixel with host := some 0x00000005 :: (List.replicate 7 none ++ []) }

theorem witness_DriveLeavesAndSendsTheFrame :
    let s : State := { State.instantiate small with ctrlState := .ready, busHeld := true, env := driveEnv }
    let pixels : List (Byte × Byte × Byte) := [(0xFF, 0x00, 0x81)]
    Live s ∧ s.ctrlState = .ready ∧ Tail s ∧ 24 * pixels.length + s.cfg.resetLen ≤ s.cfg.bufCapacity ∧
    s.env.host = some 0x00000005 :: (List.replicate (pixels.length + 6) none ++ []) ∧
    s.env.sizes = pixels.length :: [] ∧
    s.env.nexts = List.replicate pixels.length true ++ false :: [] ∧
    s.env.scaled = scaledBytes pixels ++ [] ∧
    (24 * pixels.length + s.cfg.resetLen ≠ s.bufSize ∧ s.env.allocs = true :: []) ∧
    s.env.begins = true :: [] ∧ s.env.writes = some (2, true) :: [] :=
  ⟨by decide, rfl, fun a _ h => absurd h (Nat.not_lt_zero a), by decide, rfl, rfl, rfl, rfl, ⟨by decide, rfl⟩, rfl, rfl⟩

/-- The other ways the Allocator's premise is met: an equal size, and size 0, the Allocator refusing if it were asked. -/
theorem witness_DriveLeavesAndSendsTheFrame_unasked :
    (24 * 0 + small.resetLen = 2 ∧ Tail (driving .idle { allOk with allocs := [false] }) ∧
      (driving .idle { allOk with allocs := [false] }).bufSize = 2) ∧
    24 * 0 + { Config.reference with resetLen := 0 }.resetLen = 0 := by
  refine ⟨⟨rfl, fun a _ h => ?_, rfl⟩, rfl⟩
  have h' : a < 2 := h
  interval_cases a <;> rfl

end Sys2Proof.Tests
end

section
/-! Proofs of the family of 00_scope.md: the Host's silence, MAXRATE, and what no step changes. -/

namespace Sys2Proof.Machine

/-! ### The Host's move -/

/-- The Host is silent exactly where its script has run out or says so (log 2). -/
theorem hostMove_eq_none_iff (s : State) :
    hostMove s = none ↔ s.env.host = [] ∨ ∃ rest, s.env.host = none :: rest := by
  unfold hostMove nextAnswer
  rcases s.env.host with _ | ⟨_ | w, rest⟩ <;> simp

/-- Settles O9: with the Host silent, `step_silent` gives the micro-step of the phase. -/
theorem silentHostRunsThePhase : Obligations.SilentHostRunsThePhase :=
  fun s hl hsilent => step_silent s hl ((hostMove_eq_none_iff s).2 hsilent)

/-! ### The end of a command outside a transmission -/

theorem Accepting.ctrlState_ne_transmitting {s : State} (h : Accepting s) : s.ctrlState ≠ .transmitting := by
  obtain ⟨_, hc | hc⟩ := h <;> simp [hc]

/-- A command that ends outside a transmission leaves the lifecycle state as it is (30_encoding.md R66). -/
theorem finish_of_not_transmitting (code : ResultCode) (value : Option Nat) (symbols : Option (List Byte))
    (s : State) (h : s.ctrlState ≠ .transmitting) :
    finish code value symbols s = { s with
      status := code
      resp := some { code := code, value := value, symbols := symbols }
      cmd := none
      phase := .idle
      events := s.events ++ [.resp { code := code, value := value, symbols := symbols }] } := by
  simp [finish, emit, h]

/-- Settles O26: an accepting state runs MAXRATE's own work, which ends the command with OK and the value 400. -/
theorem maxrateAnswers400 : Obligations.MaxrateAnswers400 := by
  intro s hs
  have hne : (accept .maxrate s).ctrlState ≠ .transmitting := hs.ctrlState_ne_transmitting
  rw [exec_of_accepting .maxrate s hs]
  exact congrArg Host.Outcome.next (finish_of_not_transmitting .ok (some Config.maxRefreshRate) none _ hne)

/-! ### What no step changes -/

/-- `t` has the configuration and the refusal of `s`, and the history of `s` with events added at the end
(10_state.md R37, R39). -/
structure Extends (s t : State) : Prop where
  cfg     : t.cfg = s.cfg
  refused : t.refused = s.refused
  history : s.events <+: t.events

theorem Extends.refl (s : State) : Extends s s := ⟨rfl, rfl, List.prefix_refl _⟩

theorem Extends.trans {s t u : State} (h : Extends s t) (h' : Extends t u) : Extends s u :=
  ⟨h'.cfg.trans h.cfg, h'.refused.trans h.refused, h.history.trans h'.history⟩

theorem emit_extends (e : Event) (s : State) : Extends s (emit e s) := ⟨rfl, rfl, List.prefix_append _ _⟩

theorem withEnv_extends (e : Env) (s : State) : Extends s (withEnv e s) := ⟨rfl, rfl, List.prefix_refl _⟩

theorem accept_extends (i : Instr) (s : State) : Extends s (accept i s) := ⟨rfl, rfl, List.prefix_refl _⟩

theorem raise_extends (c : FaultCode) (s : State) : Extends s (raise c s) := ⟨rfl, rfl, List.prefix_append _ _⟩

theorem finish_extends (code : ResultCode) (value : Option Nat) (symbols : Option (List Byte)) (s : State) :
    Extends s (finish code value symbols s) := ⟨rfl, rfl, List.prefix_append _ _⟩

theorem reallocate_extends (req : Nat) (s : State) : Extends s (reallocate req s) :=
  ⟨rfl, rfl, List.prefix_append _ _⟩

theorem opened_extends (ok : Bool) (s : State) : Extends s (opened ok s) := ⟨by simp, by simp, by simp⟩

theorem ensureCapacity_extends (req : Nat) (s : State) : Extends s (ensureCapacity req s).2 := by
  obtain ⟨_, h⟩ | ⟨_, _, h⟩ | ⟨_, _, _, h⟩ | ⟨_, _, _, _, h⟩ | ⟨_, _, _, _, h⟩ := ensureCapacity_cases req s <;>
    rw [h]
  · exact .refl s
  · exact reallocate_extends 0 s
  · exact emit_extends _ s
  · exact (withEnv_extends _ s).trans (reallocate_extends req _)
  · exact (withEnv_extends _ s).trans (emit_extends _ _)

theorem init_extends (s : State) : Extends s (init s) := by
  unfold init
  split
  · exact raise_extends _ s
  · exact (accept_extends .init s).trans <| (withEnv_extends _ _).trans <|
      (emit_extends _ _).trans (opened_extends _ _)

theorem drive_extends (s : State) : Extends s (drive s) := by
  unfold drive
  split
  · exact raise_extends _ s
  · exact ⟨rfl, rfl, List.prefix_refl _⟩

theorem send_extends (len : Nat) (s : State) : Extends s (send len s) := by
  unfold send
  split_ifs
  · exact raise_extends _ s
  · exact raise_extends _ s
  · exact raise_extends _ s
  · exact ⟨rfl, rfl, List.prefix_refl _⟩

theorem teardown_extends (s : State) : Extends s (teardown s) := by
  constructor <;> simp [teardown]

/-- A command's own work only adds to the history. -/
theorem work_extends (i : Instr) (s : State) : Extends s (work i s) := by
  cases i with
  | init => exact init_extends s
  | maxrate => exact (accept_extends _ s).trans (finish_extends _ _ _ _)
  | encode b => exact (accept_extends _ s).trans (finish_extends _ _ _ _)
  | ensure req =>
    exact (accept_extends _ s).trans <| (ensureCapacity_extends req _).trans (finish_extends _ _ _ _)
  | drive => exact drive_extends s
  | send len => exact send_extends len s
  | teardown => exact (accept_extends _ s).trans (teardown_extends _)

/-- A phase's micro-step only adds to the history: each of its leaves does. -/
theorem microStep_extends (s t : State) (h : microStep s = .next t) : Extends s t := by
  refine microStep_cases Extends ?idle ?size ?alloc ?allocFailed ?mismatched ?pixel ?complete ?undef ?issued
    ?notBegun ?noWrite ?hold ?written ?closed s t h
  case idle => exact fun s _ => .refl s
  case size => exact fun s _ => ⟨rfl, rfl, List.prefix_append _ _⟩
  case alloc => exact fun s _ => (ensureCapacity_extends _ s).trans ⟨rfl, rfl, List.prefix_refl _⟩
  case allocFailed => exact fun s _ => (ensureCapacity_extends _ s).trans (finish_extends _ _ _ _)
  case mismatched => exact fun s _ => ⟨by simp, by simp, by simp⟩
  case pixel => exact fun s _ _ _ _ _ => ⟨by simp, by simp, by simp⟩
  case complete => exact fun s _ => ⟨rfl, rfl, List.prefix_append _ _⟩
  case undef => exact fun s _ _ => raise_extends _ s
  case issued => exact fun s _ _ _ => ⟨rfl, rfl, List.prefix_append _ _⟩
  case notBegun =>
    exact fun s _ => (withEnv_extends _ s).trans <| (emit_extends _ _).trans ⟨rfl, rfl, List.prefix_append _ _⟩
  case noWrite => exact fun s _ _ => .refl s
  case hold => exact fun s _ => withEnv_extends _ s
  case written => exact fun s _ _ _ _ _ => ⟨rfl, rfl, List.prefix_append _ _⟩
  case closed => exact fun s _ => (emit_extends _ s).trans (finish_extends _ _ _ _)

/-- Every step only adds to the history: each of its parts does. -/
theorem step_extends (s t : State) (h : step s = .next t) : Extends s t := by
  refine step_preserves (Extends s) ?moved ?given ?raised ?worked ?micro s t (.refl s) h
  case moved => exact fun u hu => hu.trans (withEnv_extends _ u)
  case given => exact fun u w hu => hu.trans (emit_extends (.cmd w) u)
  case raised => exact fun u c hu => hu.trans (raise_extends c u)
  case worked => exact fun u i _ hu => hu.trans (work_extends i u)
  case micro => exact fun u v _ hu hm => hu.trans (microStep_extends u v hm)

/-- Settles O52, by `step_extends`, which says it of every step. -/
theorem stepOnlyAddsToTheHistory : Obligations.StepOnlyAddsToTheHistory := by
  intro s t h
  obtain ⟨hcfg, hrefused, new, hnew⟩ := step_extends s t h
  exact ⟨hcfg, hrefused, new, hnew.symm⟩

end Sys2Proof.Machine
end

section
/-! Proofs of the family of 10_state.md, the lifecycle: its transitions (R24), the bus handle (R25) and the lifecycle
invariants (R25, R26, R32, R37). -/

namespace Sys2Proof.Machine

variable {s t : State}

/-! ### The lifecycle transitions -/

theorem lifecycleMove.refl (c : CtrlState) : lifecycleMove c c := .inl rfl

/-- The end of a command moves TRANSMITTING to READY and keeps every other lifecycle state (30_encoding.md R66). -/
theorem lifecycleMove_finish {c d : CtrlState} (h : d = c) :
    lifecycleMove c (if d = .transmitting then .ready else d) := by
  subst h
  cases d <;> simp [lifecycleMove]

/-- A command that is accepted makes at most one listed transition. -/
theorem work_lifecycleMove (i : Instr) (hs : Accepting s) : lifecycleMove s.ctrlState (work i s).ctrlState := by
  obtain ⟨_, hc⟩ := hs
  cases i with
  | init =>
    simp only [work, init]
    split_ifs with hready
    · exact .refl _
    · have huninit : s.ctrlState = .uninit := hc.resolve_right hready
      cases h : openAnswer s <;> simp [huninit, lifecycleMove]
  | maxrate => exact lifecycleMove_finish rfl
  | encode b => exact lifecycleMove_finish rfl
  | ensure req => exact lifecycleMove_finish (by simp)
  | drive =>
    simp only [work, drive]
    split_ifs with huninit
    · exact .refl _
    · exact .inr (.inr (.inl ⟨hc.resolve_left huninit, rfl⟩))
  | send len =>
    simp only [work, send]
    split_ifs with huninit
    · exact .refl _
    · exact .refl _
    · exact .refl _
    · exact .inr (.inr (.inl ⟨hc.resolve_left huninit, rfl⟩))
  | teardown => rcases hc with hc | hc <;> simp [work, teardown, hc, lifecycleMove]

/-- A micro-step keeps the lifecycle state, or ends the command. -/
theorem microStep_lifecycleMove (h : microStep s = .next t) : lifecycleMove s.ctrlState t.ctrlState := by
  refine microStep_cases (fun s t => lifecycleMove s.ctrlState t.ctrlState) ?idle ?size ?alloc ?allocFailed ?mismatched
    ?pixel ?complete ?undef ?issued ?notBegun ?noWrite ?hold ?written ?closed s t h
  case idle => exact fun s _ => .refl _
  case size => exact fun s _ => .refl _
  case alloc => exact fun s _ => by simpa using .refl _
  case allocFailed => exact fun s _ => lifecycleMove_finish (by simp)
  case mismatched => exact fun s _ => lifecycleMove_finish (by simp)
  case pixel => exact fun s _ _ _ _ _ => by simpa using .refl _
  case complete => exact fun s _ => by simpa using .refl _
  case undef => exact fun s _ _ => .refl _
  case issued => exact fun s _ _ _ => by simpa using .refl _
  case notBegun => exact fun s _ => lifecycleMove_finish (by simp)
  case noWrite => exact fun s _ _ => .refl _
  case hold => exact fun s _ => .refl _
  case written => exact fun s _ _ _ _ _ => by simpa using .refl _
  case closed => exact fun s _ => lifecycleMove_finish rfl

/-- A step makes at most one listed transition, from any state: a refused word makes none, a command and a micro-step
one each. -/
theorem step_lifecycleMove (h : step s = .next t) : lifecycleMove s.ctrlState t.ctrlState := by
  obtain ⟨_, ⟨w, i, _, _, h⟩ | ⟨w, _, _, _, rfl⟩ | ⟨_, h⟩⟩ := step_cases s t h
  · obtain ⟨hl, ⟨_, rfl⟩ | ⟨_, rfl⟩ | ⟨hc, rfl⟩⟩ := exec_cases i _ t h
    · exact .refl _
    · exact .refl _
    · exact work_lifecycleMove (s := takeWord w s) i ⟨hl, hc⟩
  · exact .refl _
  · exact microStep_lifecycleMove (s := hostMoved s) h

/-- Settles O53, by `step_lifecycleMove`, which needs no invariant. -/
theorem onlyTheListedTransitions : Obligations.OnlyTheListedTransitions :=
  fun _ _ _ h => step_lifecycleMove h

/-! ### The bus handle -/

/-- A command keeps the handle, unless it is INIT that takes it or TEARDOWN that gives it up. -/
theorem work_busHeld (i : Instr) (s : State) :
    (work i s).busHeld = s.busHeld ∨ i = .init ∧ (work i s).busHeld = true ∨
      i = .teardown ∧ (work i s).busHeld = false := by
  cases i with
  | init =>
    simp only [work, init]
    split_ifs
    · exact .inl rfl
    · cases h : openAnswer s
      · exact .inl (by simp)
      · exact .inr (.inl (by simp))
  | maxrate => exact .inl rfl
  | encode b => exact .inl rfl
  | ensure req => exact .inl (by simp [work, ensure])
  | drive => exact .inl (by simp only [work, drive]; split <;> rfl)
  | send len => exact .inl (by simp only [work, send]; split_ifs <;> rfl)
  | teardown => exact .inr (.inr ⟨rfl, rfl⟩)

/-- No micro-step moves the handle. -/
theorem microStep_busHeld (h : microStep s = .next t) : t.busHeld = s.busHeld := by
  refine microStep_cases (fun s t => t.busHeld = s.busHeld) ?idle ?size ?alloc ?allocFailed ?mismatched
    ?pixel ?complete ?undef ?issued ?notBegun ?noWrite ?hold ?written ?closed s t h
  case size => exact fun s _ => rfl
  case closed => exact fun s _ => rfl
  all_goals intros; simp

/-- Settles O54: of the parts of a step only a command's own work moves the handle, and `work_busHeld` says which. -/
theorem onlyInitAndTeardownMoveTheHandle : Obligations.OnlyInitAndTeardownMoveTheHandle := by
  intro s t h hne
  obtain ⟨_, ⟨w, i, hw, hd, h⟩ | ⟨w, _, _, _, rfl⟩ | ⟨_, h⟩⟩ := step_cases s t h
  · obtain ⟨_, ⟨_, rfl⟩ | ⟨_, rfl⟩ | ⟨_, rfl⟩⟩ := exec_cases i _ t h
    · exact absurd rfl hne
    · exact absurd rfl hne
    · obtain hkept | ⟨rfl, hset⟩ | ⟨rfl, hcleared⟩ := work_busHeld i (takeWord w s)
      · exact absurd hkept hne
      · exact ⟨w, hw, .inl ⟨hd, hset⟩⟩
      · exact ⟨w, hw, .inr ⟨hd, hcleared⟩⟩
  · exact absurd rfl hne
  · exact absurd (microStep_busHeld h) hne

/-! ### The lifecycle invariants -/

theorem emit_lifecycle (e : Event) (h : Lifecycle s) : Lifecycle (emit e s) :=
  ⟨h.handle, h.sequence, h.capacity, h.admitted⟩

theorem withEnv_lifecycle (e : Env) (h : Lifecycle s) : Lifecycle (withEnv e s) :=
  ⟨h.handle, h.sequence, h.capacity, h.admitted⟩

theorem accept_lifecycle (i : Instr) (h : Lifecycle s) : Lifecycle (accept i s) :=
  ⟨h.handle, h.sequence, h.capacity, h.admitted⟩

theorem raise_lifecycle (c : FaultCode) (h : Lifecycle s) : Lifecycle (raise c s) :=
  ⟨h.handle, h.sequence, h.capacity, h.admitted⟩

/-- The end of a command leaves the handle, which READY and TRANSMITTING both hold, and IDLE, which is not
TRANSMITTING. -/
theorem finish_lifecycle (code : ResultCode) (value : Option Nat) (symbols : Option (List Byte)) (h : Lifecycle s) :
    Lifecycle (finish code value symbols s) where
  handle := by rw [finish_busHeld, finish_ctrlState, h.handle]; cases s.ctrlState <;> simp
  sequence := by rw [finish_phase, finish_ctrlState]; cases s.ctrlState <;> simp
  capacity := h.capacity
  admitted := h.admitted

/-- A new size is within the capacity: a larger one is not granted (41_framebuffer.md R77). -/
theorem ensureCapacity_bufSize_le (req : Nat) (h : s.bufSize ≤ s.cfg.bufCapacity) :
    (ensureCapacity req s).2.bufSize ≤ s.cfg.bufCapacity := by
  obtain ⟨_, he⟩ | ⟨_, _, he⟩ | ⟨_, _, _, he⟩ | ⟨_, _, hle, _, he⟩ | ⟨_, _, _, _, he⟩ :=
    ensureCapacity_cases req s <;> rw [he]
  · exact h
  · exact Nat.zero_le _
  · exact h
  · exact hle
  · exact h

theorem ensureCapacity_lifecycle (req : Nat) (h : Lifecycle s) : Lifecycle (ensureCapacity req s).2 where
  handle := by simpa using h.handle
  sequence := by simpa using h.sequence
  capacity := by simpa using ensureCapacity_bufSize_le req h.capacity
  admitted := by simpa using h.admitted

/-- INIT ends in READY with the handle, or as any command ends. -/
theorem opened_lifecycle (ok : Bool) (h : Lifecycle s) : Lifecycle (opened ok s) := by
  cases ok
  · exact finish_lifecycle _ _ _ h
  · exact ⟨by simp, by simp, h.capacity, h.admitted⟩

/-- A command that transmits starts in READY, so that the handle is held, and leaves IDLE. -/
theorem transmitting_lifecycle (cmd : Option Instr) (sendLen : Option Nat) {p : Phase} (hp : p ≠ .idle)
    (hready : s.ctrlState = .ready) (h : Lifecycle s) :
    Lifecycle { s with cmd := cmd, ctrlState := .transmitting, sendLen := sendLen, phase := p } where
  handle := by simpa using h.handle.2 (.inl hready)
  sequence := by simpa using hp
  capacity := h.capacity
  admitted := h.admitted

theorem teardown_lifecycle (h : Lifecycle s) : Lifecycle (teardown s) where
  handle := by simp [teardown]
  sequence := by simp [teardown]
  capacity := Nat.zero_le _
  admitted := by simpa [teardown] using h.admitted

/-- A command's own work keeps the lifecycle invariants. -/
theorem work_lifecycle (i : Instr) (hs : Accepting s) (h : Lifecycle s) : Lifecycle (work i s) := by
  obtain ⟨_, hc⟩ := hs
  cases i with
  | init =>
    simp only [work, init]
    split_ifs
    · exact raise_lifecycle _ h
    · exact opened_lifecycle _ (emit_lifecycle _ (withEnv_lifecycle _ (accept_lifecycle _ h)))
  | maxrate => exact finish_lifecycle _ _ _ (accept_lifecycle _ h)
  | encode b => exact finish_lifecycle _ _ _ (accept_lifecycle _ h)
  | ensure req => exact finish_lifecycle _ _ _ (ensureCapacity_lifecycle req (accept_lifecycle _ h))
  | drive =>
    simp only [work, drive]
    split_ifs with huninit
    · exact raise_lifecycle _ h
    · exact transmitting_lifecycle _ s.sendLen (by decide) (hc.resolve_left huninit) (accept_lifecycle .drive h)
  | send len =>
    simp only [work, send]
    split_ifs with huninit
    · exact raise_lifecycle _ h
    · exact raise_lifecycle _ h
    · exact raise_lifecycle _ h
    · exact transmitting_lifecycle _ _ (by decide) (hc.resolve_left huninit) (accept_lifecycle (.send len) h)
  | teardown => exact teardown_lifecycle (accept_lifecycle _ h)

/-- A phase that leads to another stays TRANSMITTING; the rest of a phase's work does not touch the lifecycle. -/
theorem nextPhase_lifecycle (hs : s.phase ≠ .idle) (h : Lifecycle s) (ht : t.phase ≠ .idle)
    (hctrl : t.ctrlState = s.ctrlState := by simp) (hheld : t.busHeld = s.busHeld := by simp)
    (hsize : t.bufSize = s.bufSize := by simp) (hcfg : t.cfg = s.cfg := by simp)
    (hrefused : t.refused = s.refused := by simp) : Lifecycle t where
  handle := by rw [hheld, hctrl]; exact h.handle
  sequence := by rw [hctrl]; exact iff_of_true ht (h.sequence.1 hs)
  capacity := by rw [hsize, hcfg]; exact h.capacity
  admitted := by rw [hrefused, hcfg]; exact h.admitted

/-- A micro-step keeps the lifecycle invariants. -/
theorem microStep_lifecycle (hs : Lifecycle s) (h : microStep s = .next t) : Lifecycle t := by
  refine microStep_cases (fun s t => Lifecycle s → Lifecycle t) ?idle ?size ?alloc ?allocFailed ?mismatched
    ?pixel ?complete ?undef ?issued ?notBegun ?noWrite ?hold ?written ?closed s t h hs
  case idle => exact fun s _ h => h
  case size => exact fun s hp h => nextPhase_lifecycle (by simp [hp]) h (by simp [phaseDSize]) rfl rfl rfl rfl rfl
  case alloc =>
    exact fun s hp h => nextPhase_lifecycle (by simp [hp]) (ensureCapacity_lifecycle (regReq s) h)
      (by rw [allocated_phase]; split <;> decide)
  case allocFailed => exact fun s _ h => finish_lifecycle _ _ _ (ensureCapacity_lifecycle _ h)
  case mismatched => exact fun s _ h => finish_lifecycle _ _ _ (emit_lifecycle _ (withEnv_lifecycle _ h))
  case pixel =>
    exact fun s _ _ _ hp _ h => nextPhase_lifecycle (by simp [hp]) h
      (by rw [pixelDone_phase]; split <;> decide)
  case complete => exact fun s hp h => nextPhase_lifecycle (by simp [hp]) h (by simp)
  case undef => exact fun s _ _ h => raise_lifecycle _ h
  case issued => exact fun s _ hp _ h => nextPhase_lifecycle (by simp [hp]) h (by simp)
  case notBegun => exact fun s _ h => finish_lifecycle _ _ _ ⟨h.handle, h.sequence, h.capacity, h.admitted⟩
  case noWrite => exact fun s _ _ h => h
  case hold => exact fun s _ h => withEnv_lifecycle _ h
  case written => exact fun s _ _ _ hp _ h => nextPhase_lifecycle (by simp [hp]) h (by simp)
  case closed => exact fun s _ h => finish_lifecycle _ _ _ (emit_lifecycle _ h)

/-- Settles O46: each part of a step keeps the lifecycle invariants. -/
theorem stepKeepsTheLifecycle : Obligations.StepKeepsTheLifecycle :=
  step_preserves Lifecycle
    (moved := fun _ h => withEnv_lifecycle _ h)
    (given := fun _ w h => emit_lifecycle (.cmd w) h)
    (raised := fun _ c h => raise_lifecycle c h)
    (worked := fun _ i hs h => work_lifecycle i hs h)
    (micro := fun _ _ _ h hm => microStep_lifecycle h hm)

end Sys2Proof.Machine
end

section
/-! Proofs of the family of 10_state.md, the frame buffer and the sequence: what a step does to the cells (R27, R35) and
what it leaves the next phase to read (R33). -/

namespace Sys2Proof.Machine

variable {s t : State}

/-! ### What a step does to the frame buffer -/

/-- All that a step can do to the frame buffer: keep it, replace it by a fresh one (an empty one where it is given up),
or write a pixel that fits below the tail. -/
def FrameMove (s t : State) : Prop :=
  t.bufSize = s.bufSize ∧ t.buf = s.buf ∨
  t.buf = (reallocate t.bufSize s).buf ∨
  t.bufSize = s.bufSize ∧ ∃ p b0 b1 b2, pixelFits p s = true ∧ t.buf = (putPixel p b0 b1 b2 s).buf

theorem ensureCapacity_frameMove (req : Nat) (s : State) : FrameMove s (ensureCapacity req s).2 := by
  obtain ⟨_, h⟩ | ⟨_, _, h⟩ | ⟨_, _, _, h⟩ | ⟨_, _, _, _, h⟩ | ⟨_, _, _, _, h⟩ :=
    ensureCapacity_cases req s <;> rw [h]
  · exact .inl ⟨rfl, rfl⟩
  · exact .inr (.inl rfl)
  · exact .inl ⟨rfl, rfl⟩
  · exact .inr (.inl rfl)
  · exact .inl ⟨rfl, rfl⟩

theorem work_frameMove (i : Instr) (s : State) : FrameMove s (work i s) := by
  cases i with
  | init =>
    simp only [work, init]
    split_ifs
    · exact .inl ⟨rfl, rfl⟩
    · exact .inl (by simp)
  | maxrate => exact .inl ⟨rfl, rfl⟩
  | encode b => exact .inl ⟨rfl, rfl⟩
  | ensure req => exact ensureCapacity_frameMove req (accept (.ensure req) s)
  | drive => exact .inl (by simp only [work, drive]; split <;> exact ⟨rfl, rfl⟩)
  | send len => exact .inl (by simp only [work, send]; split_ifs <;> exact ⟨rfl, rfl⟩)
  | teardown => exact .inr (.inl (by simp [work, teardown, Memory.zeros]))

theorem microStep_frameMove (h : microStep s = .next t) : FrameMove s t := by
  refine microStep_cases FrameMove ?idle ?size ?alloc ?allocFailed ?mismatched
    ?pixel ?complete ?undef ?issued ?notBegun ?noWrite ?hold ?written ?closed s t h
  case alloc => exact fun s _ => ensureCapacity_frameMove _ s
  case allocFailed => exact fun s _ => ensureCapacity_frameMove _ s
  case pixel => exact fun s b0 b1 b2 _ hfits => .inr (.inr ⟨by simp, regI s, b0, b1, b2, hfits, by simp⟩)
  case size => exact fun s _ => .inl ⟨rfl, rfl⟩
  case closed => exact fun s _ => .inl ⟨rfl, rfl⟩
  all_goals intros; exact .inl (by simp)

/-- A step does one thing to the frame buffer: its command's own work does it, or its micro-step. -/
theorem step_frameMove (h : step s = .next t) : FrameMove s t := by
  obtain ⟨_, ⟨w, i, _, _, h⟩ | ⟨w, _, _, _, rfl⟩ | ⟨_, h⟩⟩ := step_cases s t h
  · obtain ⟨_, ⟨_, rfl⟩ | ⟨_, rfl⟩ | ⟨_, rfl⟩⟩ := exec_cases i _ t h
    · exact .inl ⟨rfl, rfl⟩
    · exact .inl ⟨rfl, rfl⟩
    · exact work_frameMove i (takeWord w s)
  · exact .inl ⟨rfl, rfl⟩
  · exact microStep_frameMove (s := hostMoved s) h

/-! ### The reset tail and the storage -/

/-- A pixel that fits lies below the tail (40_encoder.md R72). -/
theorem slots_le_tail {p : Nat} (h : pixelFits p s = true) : 24 * p + 24 ≤ s.bufSize - s.cfg.resetLen := by
  have hle : 24 * (p + 1) ≤ s.bufSize - s.cfg.resetLen := by simpa [pixelFits] using h
  omega

/-- A pixel that fits leaves every cell from the tail on (41_framebuffer.md R76). -/
theorem putPixel_read_of_tail_le {p : Nat} {b0 b1 b2 : Byte} (h : pixelFits p s = true) {a : Nat}
    (ha : s.bufSize - s.cfg.resetLen ≤ a) : (putPixel p b0 b1 b2 s).buf.read a = s.buf.read a := by
  have := slots_le_tail h
  rw [putPixel_read, if_neg (by omega)]

/-- A cell of a written pixel reads a symbol (40_encoder.md R68). -/
theorem putPixel_read_slot {p : Nat} (b0 b1 b2 : Byte) (s : State) {a : Nat} (ha : 24 * p ≤ a)
    (ha' : a < 24 * p + 24) : (putPixel p b0 b1 b2 s).buf.read a = some s.cfg.onePattern ∨
      (putPixel p b0 b1 b2 s).buf.read a = some s.cfg.zeroPattern := by
  have hlt : a - 24 * p < (pixelSymbols s.cfg b0 b1 b2).length := by rw [pixelSymbols_length]; omega
  rw [putPixel_read, if_pos ⟨ha, ha'⟩, List.getElem?_eq_getElem hlt, Option.some_inj, Option.some_inj]
  exact mem_pixelSymbols s.cfg b0 b1 b2 _ (List.getElem_mem hlt)

/-- The tail stays zero: a fresh buffer has it, and no pixel reaches it. -/
theorem FrameMove.tail (h : FrameMove s t) (hcfg : t.cfg = s.cfg) (hs : Tail s) : Tail t := by
  intro a ha ha'
  rw [hcfg] at ha
  obtain ⟨hsize, hbuf⟩ | hbuf | ⟨hsize, p, b0, b1, b2, hfits, hbuf⟩ := h
  · rw [hsize] at ha ha'
    rw [hbuf, hs a ha ha']
  · rw [hbuf, reallocate_read, if_pos ⟨ha, ha'⟩]
  · rw [hsize] at ha ha'
    rw [hbuf, putPixel_read_of_tail_le hfits ha, hs a ha ha']

/-- The storage stays in form: a fresh buffer is, and a pixel writes symbols below the tail. -/
theorem FrameMove.storage (h : FrameMove s t) (hcfg : t.cfg = s.cfg) (hs : Storage s) : Storage t := by
  obtain ⟨hsize, hbuf⟩ | hbuf | ⟨hsize, p, b0, b1, b2, hfits, hbuf⟩ := h
  · exact ⟨by rw [hbuf]; exact hs.canonical, by rw [hsize, hbuf]; exact hs.outside,
      by rw [hsize, hcfg, hbuf]; exact hs.encoded⟩
  · refine ⟨by rw [hbuf, reallocate_buf]; exact Memory.zeros_wf _ _, fun a ha => ?_, fun a ha => .inl ?_⟩
    · rw [hbuf, reallocate_read, if_neg (by omega)]
    · rw [hcfg] at ha
      rw [hbuf, reallocate_read, if_neg (by omega)]
  · refine ⟨?_, fun a ha => ?_, fun a ha => ?_⟩
    · rw [hbuf, putPixel_buf]
      exact Memory.writeBytes_wf _ _ _ hs.canonical
    · rw [hsize] at ha
      rw [hbuf, putPixel_read_of_tail_le hfits (by omega), hs.outside a ha]
    · rw [hsize, hcfg] at ha
      rw [hbuf, hcfg]
      by_cases hslot : 24 * p ≤ a ∧ a < 24 * p + 24
      · exact .inr (putPixel_read_slot b0 b1 b2 s hslot.1 hslot.2)
      · rw [putPixel_read, if_neg hslot]
        exact hs.encoded a ha

/-- Settles O47: whatever a step does to the frame buffer keeps the tail and the form. -/
theorem stepKeepsTailAndStorage : Obligations.StepKeepsTailAndStorage := by
  intro s t ⟨htail, hstorage⟩ h
  have hcfg : t.cfg = s.cfg := (step_extends s t h).cfg
  exact ⟨(step_frameMove h).tail hcfg htail, (step_frameMove h).storage hcfg hstorage⟩

/-! ### What each phase finds -/

theorem definedBelow_of_buf_eq {len : Nat} (hbuf : t.buf = s.buf) (h : DefinedBelow s len) : DefinedBelow t len := by
  rwa [DefinedBelow, hbuf]

/-- Cells that read 0 up to the size complete a frame whose symbols are all there (43_controller.md R100). -/
theorem definedBelow_bufSize {n : Nat} (htail : Tail s) (hsize : s.bufSize = 24 * n + s.cfg.resetLen)
    (hdef : DefinedBelow s (24 * n)) : DefinedBelow s s.bufSize := by
  intro a ha
  by_cases h : a < 24 * n
  · exact hdef a h
  · rw [htail a (by omega) ha, Option.isSome_some]

/-- A written pixel extends the defined part of the frame by its 24 cells (43_controller.md R99). -/
theorem putPixel_definedBelow {p : Nat} (b0 b1 b2 : Byte) (h : DefinedBelow s (24 * p)) :
    DefinedBelow (putPixel p b0 b1 b2 s) (24 * (p + 1)) := by
  intro a ha
  by_cases hslot : 24 * p ≤ a ∧ a < 24 * p + 24
  · rcases putPixel_read_slot b0 b1 b2 s hslot.1 hslot.2 with hr | hr <;> rw [hr, Option.isSome_some]
  · rw [putPixel_read, if_neg hslot]
    exact h a (by omega)

/-- The snapshot exists exactly when the cells below the length are defined (42_transmit.md R85). -/
theorem readBytes_isSome_iff (len : Nat) : (s.buf.readBytes 0 len).isSome ↔ DefinedBelow s len := by
  simp [Memory.readBytes_isSome, DefinedBelow]

/-- Nothing is to be found in IDLE. -/
theorem sequenced_of_idle (h : s.phase = .idle) : Sequenced s := by simp [Sequenced, h]

theorem raise_sequenced (c : FaultCode) (h : Sequenced s) : Sequenced (raise c s) := h

theorem takeWord_sequenced (w : Word) (h : Sequenced s) : Sequenced (takeWord w s) := h

theorem writeAsked_sequenced (h : Sequenced s) : Sequenced (writeAsked s) := h

/-- A command's own work ends in IDLE, or begins the phases of DRIVE or SEND with what they read; a raised fault leaves
the sequencer where it was. -/
theorem work_sequenced (i : Instr) (h : Sequenced s) : Sequenced (work i s) := by
  cases i with
  | init =>
    simp only [work, init]
    split_ifs
    · exact raise_sequenced _ h
    · exact sequenced_of_idle (by simp)
  | maxrate => exact sequenced_of_idle rfl
  | encode b => exact sequenced_of_idle rfl
  | ensure req => exact sequenced_of_idle rfl
  | drive =>
    simp only [work, drive]
    split_ifs
    · exact raise_sequenced _ h
    · exact rfl
  | send len =>
    simp only [work, send]
    split_ifs with huninit hsize hcells
    · exact raise_sequenced _ h
    · exact raise_sequenced _ h
    · exact raise_sequenced _ h
    · refine ⟨len, rfl, Nat.le_of_not_lt hsize, ?_, .inl rfl⟩
      exact (readBytes_isSome_iff len).1 (by simpa [Option.isSome_iff_ne_none] using hcells)
  | teardown => exact sequenced_of_idle rfl

/-- With `i` of `n` pixels encoded the next pixel is due, or the check after the last (43_controller.md R98, R99). -/
theorem sequenced_of_encoded {n i : Nat} (hphase : t.phase = if i = n then .dCheck else .dPixel)
    (hcmd : t.cmd = some .drive) (hn : t.n = some n) (hi : t.i = some i) (hle : i ≤ n)
    (hsize : t.bufSize = 24 * n + t.cfg.resetLen) (hdef : DefinedBelow t (24 * i)) : Sequenced t := by
  by_cases hlast : i = n
  · subst hlast
    rw [if_pos rfl] at hphase
    simp only [Sequenced, hphase]
    exact ⟨hcmd, i, hn, hsize, hdef⟩
  · rw [if_neg hlast] at hphase
    simp only [Sequenced, hphase]
    exact ⟨hcmd, n, i, hn, hi, by omega, hsize, hdef⟩

/-- An allocation that is granted has the size asked for (41_framebuffer.md R74, R75). -/
theorem ensureCapacity_bufSize_of_ok {req : Nat} (h : (ensureCapacity req s).1 = .ok) :
    (ensureCapacity req s).2.bufSize = req := by
  obtain ⟨heq, he⟩ | ⟨_, heq, he⟩ | ⟨_, _, _, he⟩ | ⟨_, _, _, _, he⟩ | ⟨_, _, _, _, he⟩ :=
    ensureCapacity_cases req s <;> rw [he] at h ⊢
  · exact heq.symm
  · exact heq.symm
  · cases h
  · rfl
  · cases h

/-- Phase D_ALLOC goes on with an allocation that was granted, and otherwise ends as ENSURE does
(43_controller.md R98). -/
theorem phaseDAlloc_eq (s : State) :
    phaseDAlloc s = if (ensureCapacity (regReq s) s).1 = .ok then allocated (ensureCapacity (regReq s) s).2
      else ensure (regReq s) s := by
  unfold phaseDAlloc ensure
  split
  · rename_i h
    rw [h, if_pos rfl]
  · rename_i hne h
    rw [h, if_neg hne]

/-- A granted buffer has the size of the `n` pixels and the tail, and no pixel is encoded yet (43_controller.md R98). -/
theorem phaseDAlloc_sequenced (hp : s.phase = .dAlloc) (h : Sequenced s) : Sequenced (phaseDAlloc s) := by
  simp only [Sequenced, hp] at h
  obtain ⟨hcmd, n, hn, hreq⟩ := h
  have hregReq : regReq s = 24 * n + s.cfg.resetLen := by simp [regReq, seqReg, hreq]
  rw [phaseDAlloc_eq]
  split_ifs with hok
  · refine sequenced_of_encoded (n := n) (i := 0) ?_ (by simpa using hcmd) (by simpa using hn) rfl (Nat.zero_le n) ?_
      (fun a ha => absurd ha (Nat.not_lt_zero a))
    · simp [regN, seqReg, hn, eq_comm]
    · rw [allocated_bufSize, ensureCapacity_bufSize_of_ok hok, hregReq, allocated_cfg, ensureCapacity_cfg]
  · exact sequenced_of_idle rfl

/-- Encoding a pixel leaves one pixel more (43_controller.md R99). -/
theorem pixelDone_sequenced (b0 b1 b2 : Byte) (hp : s.phase = .dPixel) (h : Sequenced s) :
    Sequenced (pixelDone (putPixel (regI s) b0 b1 b2 (takePixel b0 b1 b2 (askHasNext s)))) := by
  simp only [Sequenced, hp] at h
  obtain ⟨hcmd, n, i, hn, hi, hlt, hsize, hdef⟩ := h
  have hregI : regI s = i := by simp [regI, seqReg, hi]
  rw [hregI]
  refine sequenced_of_encoded (n := n) (i := i + 1) ?_ (by simpa using hcmd) (by simpa using hn) ?_ hlt
    (by simpa using hsize) ?_
  · simp [regI, regN, seqReg, hi, hn]
  · simp [regI, seqReg, hi]
  · intro a ha
    rw [pixelDone_buf]
    exact putPixel_definedBelow b0 b1 b2 (definedBelow_of_buf_eq (by simp) hdef) a ha

/-- D_CHECK sends the whole buffer, which the pixels and the zero tail fill (43_controller.md R100). -/
theorem frameComplete_sequenced (hp : s.phase = .dCheck) (htail : Tail s) (h : Sequenced s) :
    Sequenced (frameComplete (askHasNext s)) := by
  simp only [Sequenced, hp] at h
  obtain ⟨hcmd, n, _, hsize, hdef⟩ := h
  have hall : DefinedBelow s s.bufSize := definedBelow_bufSize htail hsize hdef
  simp only [Sequenced, frameComplete_phase]
  exact ⟨s.bufSize, by simp, by simp, definedBelow_of_buf_eq (by simp) hall, .inr ⟨by simpa using hcmd, by simp⟩⟩

/-- A send is under way as long as its length, its command and the buffer stay. -/
theorem sending_of_eq (h : Sending s) (hlen : t.sendLen = s.sendLen) (hcmd : t.cmd = s.cmd)
    (hsize : t.bufSize = s.bufSize) (hbuf : t.buf = s.buf) : Sending t := by
  obtain ⟨len, hlen', hle, hdef, hcmd'⟩ := h
  exact ⟨len, by rw [hlen, hlen'], by rwa [hsize], definedBelow_of_buf_eq hbuf hdef, by rwa [hcmd, hsize]⟩

/-- The opened transaction has the snapshot for its pending write (42_transmit.md R85). -/
theorem writeIssued_sequenced {bytes : List Byte} (hp : s.phase = .sBegin)
    (hread : s.buf.readBytes 0 (regSendLen s) = some bytes) (h : Sequenced s) :
    Sequenced (writeIssued bytes (emit (.busBegin (busCfg s.cfg) true) (beginAsked s))) := by
  simp only [Sequenced, hp] at h
  simp only [Sequenced, writeIssued_phase]
  exact ⟨sending_of_eq h (by simp) (by simp) (by simp) (by simp), by simp, bytes, by simp,
    by simpa [regSendLen] using hread⟩

/-- The completed write leaves the send under way, its result recorded (42_transmit.md R86). -/
theorem writeCompleted_sequenced (bytes : List Byte) (e : Nat) (ok : Bool) (hp : s.phase = .sWrite)
    (h : Sequenced s) : Sequenced (writeCompleted bytes e ok (writeAsked s)) := by
  simp only [Sequenced, hp] at h
  obtain ⟨hsending, hbegun, _⟩ := h
  simp only [Sequenced, writeCompleted_phase]
  exact ⟨sending_of_eq hsending (by simp) (by simp) (by simp) (by simp), by simpa using hbegun, by simp⟩

/-- A micro-step leaves the next phase what it reads. -/
theorem microStep_sequenced (htail : Tail s) (hs : Sequenced s) (h : microStep s = .next t) : Sequenced t := by
  by_cases halloc : s.phase = .dAlloc
  · simp only [microStep, halloc, Host.Outcome.next.injEq] at h
    rw [← h]
    exact phaseDAlloc_sequenced halloc hs
  refine microStep_cases (fun s t => s.phase ≠ .dAlloc → Tail s → Sequenced s → Sequenced t) ?idle ?size ?alloc
    ?allocFailed ?mismatched ?pixel ?complete ?undef ?issued ?notBegun ?noWrite ?hold ?written ?closed s t h halloc
    htail hs
  case idle => exact fun s _ _ _ h => h
  case size =>
    intro s hp _ _ h
    simp only [Sequenced, hp] at h
    exact ⟨h, sizeAnswer s, rfl, rfl⟩
  case alloc => exact fun s hp hne => absurd hp hne
  case allocFailed => exact fun s hp hne => absurd hp hne
  case mismatched => exact fun s _ _ _ _ => sequenced_of_idle rfl
  case pixel => exact fun s b0 b1 b2 hp _ _ _ h => pixelDone_sequenced b0 b1 b2 hp h
  case complete => exact fun s hp _ htail h => frameComplete_sequenced hp htail h
  case undef => exact fun s _ _ _ _ h => raise_sequenced _ h
  case issued => exact fun s bytes hp hread _ _ h => writeIssued_sequenced hp hread h
  case notBegun => exact fun s _ _ _ _ => sequenced_of_idle rfl
  case noWrite => exact fun s _ _ _ _ h => h
  case hold => exact fun s _ _ _ h => writeAsked_sequenced h
  case written => exact fun s bytes e ok hp _ _ _ h => writeCompleted_sequenced bytes e ok hp h
  case closed => exact fun s _ _ _ _ => sequenced_of_idle rfl

/-- Settles O48: a command's own work and a micro-step leave the next phase what it reads, and the Host's move, the
`Cmd` event and a fault leave the current phase its own. -/
theorem stepKeepsTheSequence : Obligations.StepKeepsTheSequence := by
  intro s t ⟨htail, hs⟩ h
  obtain ⟨_, ⟨w, i, _, _, h⟩ | ⟨w, _, _, _, rfl⟩ | ⟨_, h⟩⟩ := step_cases s t h
  · obtain ⟨_, ⟨_, rfl⟩ | ⟨_, rfl⟩ | ⟨_, rfl⟩⟩ := exec_cases i _ t h
    · exact raise_sequenced _ (takeWord_sequenced w hs)
    · exact raise_sequenced _ (takeWord_sequenced w hs)
    · exact work_sequenced i (takeWord_sequenced w hs)
  · exact raise_sequenced _ (takeWord_sequenced w hs)
  · exact microStep_sequenced (s := hostMoved s) htail hs h

end Sys2Proof.Machine
end

section
/-! Proofs of the family of 10_state.md, the bookkeeping: who owns the allocation (R36, R34), that `status` is the code
of the response (R28, R30), and that every transaction is opened with BUS_CFG (42_transmit.md R83). -/

namespace Sys2Proof.Machine

variable {s t : State}

/-! ### The operations a step is made of, as far as the bookkeeping sees them -/

/-- Whether an event is none of a response, the begin of a transaction, and an entry about an allocation. -/
def Event.isPlain : Event → Bool
  | .resp _ => false
  | .busBegin _ _ => false
  | .alloc _ _ => false
  | .allocFail _ _ => false
  | .release _ => false
  | _ => true

/-- The two states have the same configuration, size and bookkeeping. -/
structure SameBooks (s t : State) : Prop where
  cfg        : t.cfg = s.cfg := by rfl
  bufSize    : t.bufSize = s.bufSize := by rfl
  status     : t.status = s.status := by rfl
  resp       : t.resp = s.resp := by rfl
  allocCount : t.allocCount = s.allocCount := by rfl
  events     : t.events = s.events := by rfl

/-- Every operation on the bookkeeping that a step is made of keeps `P`. -/
structure KeptByOperations (P : State → Prop) : Prop where
  quiet     : ∀ {s t}, P s → SameBooks s t → P t
  emitted   : ∀ {s} e, e.isPlain = true → P s → P (emit e s)
  begun     : ∀ {s} ok, P s → P (emit (.busBegin (busCfg s.cfg) ok) s)
  ended     : ∀ {s} code value symbols, P s → P (finish code value symbols s)
  replaced  : ∀ {s} req, P s → P (reallocate req s)
  notGiven  : ∀ {s} req, P s → P (emit (.allocFail s.bufSize req) s)
  givenUp   : ∀ {s}, P s → P (release s)

namespace KeptByOperations

variable {P : State → Prop} (K : KeptByOperations P)
include K

theorem keeps_withEnv (e : Env) (h : P s) : P (withEnv e s) := K.quiet h {}

theorem keeps_accept (i : Instr) (h : P s) : P (accept i s) := K.quiet h {}

theorem keeps_raise (c : FaultCode) (h : P s) : P (raise c s) :=
  K.emitted (.fault c) rfl (K.quiet h {})

theorem keeps_askHasNext (h : P s) : P (askHasNext s) := K.emitted _ rfl (K.keeps_withEnv _ h)

theorem keeps_ensureCapacity (req : Nat) (h : P s) : P (ensureCapacity req s).2 := by
  obtain ⟨_, he⟩ | ⟨_, _, he⟩ | ⟨_, _, _, he⟩ | ⟨_, _, _, _, he⟩ | ⟨_, _, _, _, he⟩ :=
    ensureCapacity_cases req s <;> rw [he]
  · exact h
  · exact K.replaced 0 h
  · exact K.notGiven req h
  · exact K.replaced req (K.keeps_withEnv _ h)
  · exact K.notGiven req (K.keeps_withEnv _ h)

theorem keeps_opened (ok : Bool) (h : P s) : P (opened ok s) := by
  cases ok
  · exact K.ended _ _ _ h
  · exact K.ended _ _ _ (K.quiet h {})

theorem keeps_work (i : Instr) (h : P s) : P (work i s) := by
  cases i with
  | init =>
    simp only [work, init]
    split_ifs
    · exact K.keeps_raise _ h
    · exact K.keeps_opened _ (K.emitted _ rfl (K.keeps_withEnv _ (K.keeps_accept _ h)))
  | maxrate => exact K.ended _ _ _ (K.keeps_accept _ h)
  | encode b => exact K.ended _ _ _ (K.keeps_accept _ h)
  | ensure req => exact K.ended _ _ _ (K.keeps_ensureCapacity req (K.keeps_accept _ h))
  | drive =>
    simp only [work, drive]
    split_ifs
    · exact K.keeps_raise _ h
    · exact K.quiet h {}
  | send len =>
    simp only [work, send]
    split_ifs
    · exact K.keeps_raise _ h
    · exact K.keeps_raise _ h
    · exact K.keeps_raise _ h
    · exact K.quiet h {}
  | teardown => exact K.ended _ _ _ (K.quiet (K.givenUp (K.keeps_accept .teardown h)) (by constructor <;> simp))

theorem keeps_takePixel (b0 b1 b2 : Byte) (h : P s) : P (takePixel b0 b1 b2 s) :=
  K.emitted _ rfl (K.emitted _ rfl (K.emitted _ rfl (K.keeps_withEnv _ h)))

theorem keeps_pixelDone (h : P s) : P (pixelDone s) :=
  K.quiet (K.emitted .srcDither rfl (K.emitted .srcAdvance rfl h)) {}

theorem keeps_microStep (hs : P s) (h : microStep s = .next t) : P t := by
  refine microStep_cases (fun s t => P s → P t) ?idle ?size ?alloc ?allocFailed ?mismatched ?pixel ?complete ?undef
    ?issued ?notBegun ?noWrite ?hold ?written ?closed s t h hs
  case idle => exact fun s _ h => h
  case size =>
    intro s _ h
    have hasked : P (sizeAsked s) := K.keeps_withEnv _ h
    exact K.quiet (K.emitted (.srcSize (sizeAnswer s)) rfl hasked) {}
  case alloc => exact fun s _ h => K.quiet (K.keeps_ensureCapacity (regReq s) h) {}
  case allocFailed => exact fun s _ h => K.ended _ _ _ (K.keeps_ensureCapacity _ h)
  case mismatched => exact fun s _ h => K.ended _ _ _ (K.keeps_askHasNext h)
  case pixel =>
    intro s b0 b1 b2 _ _ h
    have htaken := K.keeps_takePixel b0 b1 b2 (K.keeps_askHasNext h)
    exact K.keeps_pixelDone (K.quiet htaken (by constructor <;> simp only [putPixel]))
  case complete => exact fun s _ h => K.quiet (K.keeps_askHasNext h) {}
  case undef => exact fun s _ _ h => K.keeps_raise _ h
  case issued =>
    intro s bytes _ _ h
    have hasked : P (beginAsked s) := K.keeps_withEnv _ h
    exact K.quiet (K.begun true hasked) {}
  case notBegun =>
    intro s _ h
    have hasked : P (beginAsked s) := K.keeps_withEnv _ h
    exact K.ended _ _ _ (K.quiet (K.begun false hasked) {})
  case noWrite => exact fun s _ _ h => h
  case hold => exact fun s _ h => K.keeps_withEnv _ h
  case written =>
    intro s bytes e ok _ _ h
    have hasked : P (writeAsked s) := K.keeps_withEnv _ h
    exact K.quiet (K.emitted (.busWrite bytes (min e bytes.length) ok) rfl hasked) (by constructor <;> simp)
  case closed => exact fun s _ h => K.ended _ _ _ (K.emitted .busEnd rfl h)

/-- What every operation on the bookkeeping keeps, every step keeps. -/
theorem keeps_step (hs : P s) (h : step s = .next t) : P t :=
  step_preserves P
    (moved := fun _ h => K.keeps_withEnv _ h)
    (given := fun _ w h => K.emitted (.cmd w) rfl h)
    (raised := fun _ c h => K.keeps_raise c h)
    (worked := fun _ i _ h => K.keeps_work i h)
    (micro := fun _ _ _ h hm => K.keeps_microStep h hm)
    s t hs h

end KeptByOperations

/-! ### The allocation owned -/

theorem ownedAfter_append (events new : List Event) :
    ownedAfter (events ++ new) = new.foldl ownedStep (ownedAfter events) := List.foldl_append

/-- New events that lead the ledger from the old size to the new one, and as many reallocations counted. -/
theorem owned_of_append {new : List Event} (hs : Owned s) (hevents : t.events = s.events ++ new)
    (hledger : new.foldl ownedStep (some s.bufSize) = some t.bufSize)
    (hcount : t.allocCount = s.allocCount + new.countP Event.isAlloc) : Owned t where
  ledger := by rw [hevents, ownedAfter_append, hs.ledger, hledger]
  count := by rw [hevents, List.countP_append, ← hs.count, hcount]

/-- A plain event acts on no allocation. -/
theorem ownedStep_of_isPlain {e : Event} (h : e.isPlain = true) (owned : Nat) :
    ownedStep (some owned) e = some owned ∧ e.isAlloc = false := by
  cases e with
  | resp | busBegin | alloc | allocFail | release => cases h
  | _ => exact ⟨rfl, rfl⟩

/-- The allocation owned before is what a reallocation replaces, a refused one keeps and a release gives up. -/
theorem owned_keptByOperations : KeptByOperations Owned where
  quiet hs h := ⟨by rw [h.events, h.bufSize, hs.ledger], by rw [h.events, h.allocCount, hs.count]⟩
  emitted e he hs := by
    obtain ⟨hledger, hcount⟩ := ownedStep_of_isPlain he _
    exact owned_of_append hs rfl hledger (by simpa using hcount)
  begun _ hs := owned_of_append hs rfl rfl rfl
  ended _ _ _ hs := owned_of_append hs rfl rfl rfl
  replaced _ hs := owned_of_append hs rfl (if_pos rfl) rfl
  notGiven _ hs := owned_of_append hs rfl (if_pos rfl) rfl
  givenUp {s} hs := by
    refine owned_of_append hs (release_events s) ?_ ?_
    · by_cases h : s.bufSize = 0 <;> simp [h, ownedStep]
    · by_cases h : s.bufSize = 0 <;> simp [h, Event.isAlloc]

/-- Settles O50: every operation on the bookkeeping keeps the ledger and the count. -/
theorem stepKeepsOwnership : Obligations.StepKeepsOwnership :=
  fun _ _ hs h => owned_keptByOperations.keeps_step hs h

/-! ### The response and BUS_CFG -/

/-- Only the end of a command writes `status` or the response, and it writes both alike (30_encoding.md R66). -/
theorem responded_keptByOperations : KeptByOperations Responded where
  quiet hs h r hr := by
    rw [h.resp] at hr
    rw [h.status]
    exact hs r hr
  emitted _ _ hs := hs
  begun _ hs := hs
  ended _ _ _ _ r hr := by cases hr; rfl
  replaced _ hs := hs
  notGiven _ hs := hs
  givenUp hs r hr := by
    rw [release_resp] at hr
    rw [release_status]
    exact hs r hr

/-- New events keep BUS_CFG, unless one is a transaction opened with another. -/
theorem fixedBusCfg_of_append {new : List Event} (hs : FixedBusCfg s) (hcfg : t.cfg = s.cfg)
    (hevents : t.events = s.events ++ new) (hnew : ∀ cfg ok, Event.busBegin cfg ok ∈ new → cfg = busCfg s.cfg) :
    FixedBusCfg t := by
  intro cfg ok hmem
  rw [hevents, List.mem_append] at hmem
  rw [hcfg]
  exact hmem.elim (hs cfg ok) (hnew cfg ok)

/-- Only `beginTransaction` opens a transaction, and S_BEGIN asks it with BUS_CFG (42_transmit.md R83). -/
theorem fixedBusCfg_keptByOperations : KeptByOperations FixedBusCfg where
  quiet hs h := fixedBusCfg_of_append (new := []) hs h.cfg (by simp [h.events]) (by simp)
  emitted e he hs := by
    refine fixedBusCfg_of_append hs rfl rfl fun cfg ok hmem => ?_
    rw [← List.mem_singleton.1 hmem] at he
    cases he
  begun _ hs := fixedBusCfg_of_append hs rfl rfl (by simp)
  ended _ _ _ hs := fixedBusCfg_of_append hs rfl rfl (by simp)
  replaced _ hs := fixedBusCfg_of_append hs rfl rfl (by simp)
  notGiven _ hs := fixedBusCfg_of_append hs rfl rfl (by simp)
  givenUp {s} hs := fixedBusCfg_of_append hs (release_cfg s) (release_events s) (by split <;> simp)

/-- Settles O51: the end of a command writes `status` and the response alike, and S_BEGIN opens with BUS_CFG. -/
theorem stepKeepsResponseAndBusCfg : Obligations.StepKeepsResponseAndBusCfg :=
  fun _ _ ⟨hresp, hcfg⟩ h =>
    ⟨responded_keptByOperations.keeps_step hresp h, fixedBusCfg_keptByOperations.keeps_step hcfg h⟩

end Sys2Proof.Machine
end

section
/-! Proofs of the family of 10_state.md, what no step reads: `status`, `alloc_count` and the event history (R28, R34,
R39). -/

namespace Sys2Proof.Machine

variable {s s' : State}

/-! ### Functions that do not read the bookkeeping -/

/-- Seen through `view`, the answer of `f` is the same with the bookkeeping blanked. -/
def Unreading {α : Type} (view : α → α) (f : State → α) : Prop := ∀ s, view (f (unread s)) = view (f s)

/-- Two states that differ only in the bookkeeping get the same answer. -/
theorem Unreading.congr {α : Type} {view : α → α} {f : State → α} (hf : Unreading view f)
    (h : unread s = unread s') : view (f s) = view (f s') := by
  rw [← hf s, ← hf s', h]

/-- A test that does not read the bookkeeping, between answers that do not. -/
theorem Unreading.ite {α : Type} {view : α → α} {c : State → Prop} [DecidablePred c] {f g : State → α}
    (hc : ∀ s, c (unread s) ↔ c s) (hf : Unreading view f) (hg : Unreading view g) :
    Unreading view fun s => if c s then f s else g s := by
  intro s
  simp only [hc s]
  split_ifs
  · exact hf s
  · exact hg s

theorem Unreading.comp {α : Type} {view : α → α} {f : State → State} {g : State → α} (hg : Unreading view g)
    (hf : Unreading unread f) : Unreading view fun s => g (f s) := fun s => hg.congr (hf s)

/-! ### What the model reads of a state is not blanked -/

@[simp] theorem unread_ctrlState (s : State) : (unread s).ctrlState = s.ctrlState := rfl
@[simp] theorem unread_bufSize (s : State) : (unread s).bufSize = s.bufSize := rfl
@[simp] theorem unread_buf (s : State) : (unread s).buf = s.buf := rfl
@[simp] theorem unread_phase (s : State) : (unread s).phase = s.phase := rfl
@[simp] theorem unread_env (s : State) : (unread s).env = s.env := rfl
@[simp] theorem halted_unread (s : State) : halted (unread s) = halted s := rfl
@[simp] theorem hostMove_unread (s : State) : hostMove (unread s) = hostMove s := rfl
@[simp] theorem writeAnswer_unread (s : State) : writeAnswer (unread s) = writeAnswer s := rfl
@[simp] theorem regReq_unread (s : State) : regReq (unread s) = regReq s := rfl
@[simp] theorem regSendLen_unread (s : State) : regSendLen (unread s) = regSendLen s := rfl

/-! ### The operations and the commands -/

theorem finish_unreading (code : ResultCode) (value : Option Nat) (symbols : Option (List Byte)) :
    Unreading unread (finish code value symbols) := fun _ => rfl

theorem raise_unreading (c : FaultCode) : Unreading unread (raise c) := fun _ => rfl

theorem opened_unreading (ok : Bool) : Unreading unread (opened ok) := by
  intro s
  cases ok
  · exact finish_unreading _ _ _ s
  · exact (finish_unreading _ _ _).congr rfl

/-- `ensureCapacity` answers the same result, and next states that differ only in the bookkeeping. -/
theorem ensureCapacity_unreading (req : Nat) : Unreading (Prod.map id unread) (ensureCapacity req) :=
  .ite (fun _ => Iff.rfl) (fun _ => rfl) <| .ite (fun _ => Iff.rfl) (fun _ => rfl) <|
    .ite (fun _ => Iff.rfl) (fun _ => rfl) <| .ite (fun _ => Iff.rfl) (fun _ => rfl) (fun _ => rfl)

theorem ensureCapacity_code_unread (req : Nat) (s : State) :
    (ensureCapacity req (unread s)).1 = (ensureCapacity req s).1 :=
  (Prod.ext_iff.1 (ensureCapacity_unreading req s)).1

theorem ensureCapacity_next_unread (req : Nat) (s : State) :
    unread (ensureCapacity req (unread s)).2 = unread (ensureCapacity req s).2 :=
  (Prod.ext_iff.1 (ensureCapacity_unreading req s)).2

theorem ensure_unreading (req : Nat) : Unreading unread (ensure req) := by
  intro s
  have hnext := ensureCapacity_next_unread req s
  have hsize : (ensureCapacity req (unread s)).2.bufSize = (ensureCapacity req s).2.bufSize := by
    rw [← unread_bufSize, hnext, unread_bufSize]
  rw [ensure, ensure, ensureCapacity_code_unread, hsize]
  exact (finish_unreading _ _ _).congr hnext

theorem release_unreading : Unreading unread release := by
  have h : Unreading unread fun s => if s.bufSize = 0 then s else emit (.release s.bufSize) s :=
    .ite (fun _ => Iff.rfl) (fun _ => rfl) (fun _ => rfl)
  exact fun s => congrArg (fun u => { u with bufSize := 0, buf := [] }) (h s)

theorem init_unreading : Unreading unread init :=
  .ite (fun _ => Iff.rfl) (raise_unreading _) fun s => (opened_unreading (openAnswer s)).congr rfl

theorem drive_unreading : Unreading unread drive :=
  .ite (fun _ => Iff.rfl) (raise_unreading _) fun _ => rfl

theorem send_unreading (len : Nat) : Unreading unread (send len) :=
  .ite (fun _ => Iff.rfl) (raise_unreading _) <| .ite (fun _ => Iff.rfl) (raise_unreading _) <|
    .ite (fun _ => Iff.rfl) (raise_unreading _) fun _ => rfl

theorem teardown_unreading : Unreading unread teardown := by
  intro s
  have h : unread (release (unread s)) = unread (release s) := release_unreading s
  exact (finish_unreading _ _ _).congr
    (congrArg (fun u => { u with busHeld := false, ctrlState := .tornDown }) h)

/-- No command's own work reads the bookkeeping. -/
theorem work_unreading (i : Instr) : Unreading unread (work i) := by
  cases i with
  | init => exact init_unreading
  | maxrate => exact (finish_unreading _ _ _).comp fun _ => rfl
  | encode b => exact fun s => (finish_unreading _ _ _).congr rfl
  | ensure req => exact (ensure_unreading req).comp fun _ => rfl
  | drive => exact drive_unreading
  | send len => exact send_unreading len
  | teardown => exact teardown_unreading.comp fun _ => rfl

theorem exec_unreading (i : Instr) : Unreading (viewOf unread) (exec i) := by
  intro s
  simp only [exec_eq_checked, checked, halted_unread, unread_ctrlState]
  cases halted s with
  | some stop => rfl
  | none =>
    refine congrArg Host.Outcome.next ?_
    cases s.ctrlState with
    | tornDown => exact raise_unreading _ s
    | transmitting => exact raise_unreading _ s
    | uninit => exact work_unreading i s
    | ready => exact work_unreading i s

/-! ### The phases -/

theorem phaseDAlloc_unreading : Unreading unread phaseDAlloc := by
  intro s
  rw [phaseDAlloc_eq, phaseDAlloc_eq, regReq_unread, ensureCapacity_code_unread]
  split_ifs
  · exact Unreading.congr (f := allocated) (fun _ => rfl) (ensureCapacity_next_unread _ s)
  · exact ensure_unreading _ s

theorem pixelDone_unreading : Unreading unread pixelDone := fun _ => rfl

theorem putPixel_unreading (p : Nat) (b0 b1 b2 : Byte) : Unreading unread (putPixel p b0 b1 b2) := fun _ => rfl

theorem encodePixel_unreading : Unreading (viewOf unread) encodePixel :=
  .ite (fun _ => Iff.rfl)
    (fun _ => congrArg Host.Outcome.next (pixelDone_unreading.congr ((putPixel_unreading _ _ _ _).congr rfl)))
    (fun _ => rfl)

theorem askHasNext_unreading : Unreading unread askHasNext := fun _ => rfl

theorem mismatch_unreading : Unreading unread mismatch := fun _ => rfl

theorem phaseDPixel_unreading : Unreading (viewOf unread) phaseDPixel :=
  .ite (fun _ => Iff.rfl) (fun s => encodePixel_unreading.congr (askHasNext_unreading s))
    fun s => congrArg Host.Outcome.next (mismatch_unreading.congr (askHasNext_unreading s))

theorem phaseDCheck_unreading : Unreading unread phaseDCheck :=
  .ite (fun _ => Iff.rfl) (fun s => mismatch_unreading.congr (askHasNext_unreading s))
    fun s => Unreading.congr (f := frameComplete) (fun _ => rfl) (askHasNext_unreading s)

theorem writeIssued_unreading (bytes : List Byte) : Unreading unread (writeIssued bytes) := fun _ => rfl

theorem beginFailed_unreading : Unreading unread beginFailed := fun _ => rfl

theorem phaseSBegin_unreading : Unreading unread phaseSBegin := by
  intro s
  simp only [phaseSBegin, unread_buf, regSendLen_unread]
  cases s.buf.readBytes 0 (regSendLen s) with
  | none => exact raise_unreading _ s
  | some bytes =>
    have h : Unreading unread fun s =>
        if beginAnswer s then writeIssued bytes (emit (.busBegin (busCfg s.cfg) (beginAnswer s)) (beginAsked s))
        else beginFailed (emit (.busBegin (busCfg s.cfg) (beginAnswer s)) (beginAsked s)) :=
      .ite (fun _ => Iff.rfl) (fun _ => (writeIssued_unreading bytes).congr rfl)
        fun _ => beginFailed_unreading.congr rfl
    exact h s

theorem phaseSWrite_unreading : Unreading unread phaseSWrite := by
  intro s
  simp only [phaseSWrite, unread_env, writeAnswer_unread]
  cases s.env.busReq with
  | none => rfl
  | some bytes => cases writeAnswer s <;> rfl

/-- No micro-step reads the bookkeeping. -/
theorem microStep_unreading : Unreading (viewOf unread) microStep := by
  intro s
  simp only [microStep, unread_phase]
  cases s.phase with
  | idle => rfl
  | dSize => rfl
  | dAlloc => exact congrArg Host.Outcome.next (phaseDAlloc_unreading s)
  | dPixel => exact phaseDPixel_unreading s
  | dCheck => exact congrArg Host.Outcome.next (phaseDCheck_unreading s)
  | sBegin => exact congrArg Host.Outcome.next (phaseSBegin_unreading s)
  | sWrite => exact congrArg Host.Outcome.next (phaseSWrite_unreading s)
  | sEnd => rfl

/-- No step reads the bookkeeping: neither the checks before it nor any of its parts does. -/
theorem step_unreading : Unreading (viewOf unread) step := by
  intro s
  simp only [step, halted_unread, hostMove_unread]
  cases halted s with
  | some stop => rfl
  | none =>
    cases hostMove s with
    | none => exact microStep_unreading.congr rfl
    | some w =>
      cases hd : decode w with
      | command i =>
        simp only [hd]
        exact (exec_unreading i).congr (s := takeWord w (unread s)) rfl
      | illegal why =>
        simp only [hd]
        rfl

/-- Settles O58: `step` answers two states alike that are alike once the bookkeeping is blanked. -/
theorem bookkeepingIsNeverRead : Obligations.BookkeepingIsNeverRead :=
  fun _ _ h => step_unreading.congr h

end Sys2Proof.Machine
end

section
/-! Proofs of the family of 20_memory.md: the slots of the encoded region (R43), who writes the frame buffer (R41, R50,
R51), and what reaches the line (R45). -/

namespace Sys2Proof.Machine

variable {s t : State}

/-! ### The slots of the encoded region -/

/-- Settles O18: an address is taken apart by its quotients by 24 and by 8, and in no other way. -/
theorem slotsTileTheEncodedRegion : Obligations.SlotsTileTheEncodedRegion := by
  intro n a
  unfold slot
  refine ⟨⟨fun ha => ?_, ?_⟩, ?_⟩
  · exact ⟨a / 24, a % 24 / 8, a % 8, by omega, by omega, by omega, by omega⟩
  · rintro ⟨p, ch, k, hp, hch, hk, rfl⟩
    omega
  · intro p ch k p' ch' k' hch hk hch' hk' heq
    omega

/-! ### Who writes the frame buffer -/

/-- `t` has the size and the count of `s`, and every cell of `s` but for those that are `written`. -/
structure KeepsCellsBut (written : Nat → Prop) (s t : State) : Prop where
  bufSize    : t.bufSize = s.bufSize
  allocCount : t.allocCount = s.allocCount
  cells      : ∀ a, t.buf.read a = s.buf.read a ∨ written a

/-- An operation that does not touch the buffer keeps it whole. -/
theorem KeepsCellsBut.untouched {written : Nat → Prop} (hsize : t.bufSize = s.bufSize := by simp)
    (hcount : t.allocCount = s.allocCount := by simp) (hbuf : t.buf = s.buf := by simp) :
    KeepsCellsBut written s t :=
  ⟨hsize, hcount, fun _ => .inl (by rw [hbuf])⟩

/-- A pixel write reaches no cell but the pixel's 24 slots (40_encoder.md R72). -/
theorem putPixel_read_or_slot (p : Nat) (b0 b1 b2 : Byte) (s : State) (a : Nat) :
    (putPixel p b0 b1 b2 s).buf.read a = s.buf.read a ∨ slot p 0 0 ≤ a ∧ a ≤ slot p 2 7 := by
  by_cases h : 24 * p ≤ a ∧ a < 24 * p + 24
  · exact .inr (by unfold slot; omega)
  · exact .inl (by rw [putPixel_read, if_neg h])

/-- Of the commands only ENSURE and TEARDOWN write the buffer (20_memory.md R50, R51). -/
theorem work_keepsCells (i : Instr) (s : State) :
    (∃ req, i = .ensure req) ∨ i = .teardown ∨ KeepsCellsBut (fun _ => False) s (work i s) := by
  cases i with
  | init =>
    simp only [work, init]
    split_ifs
    · exact .inr (.inr (.untouched rfl rfl rfl))
    · exact .inr (.inr .untouched)
  | maxrate => exact .inr (.inr (.untouched rfl rfl rfl))
  | encode b => exact .inr (.inr (.untouched rfl rfl rfl))
  | ensure req => exact .inl ⟨req, rfl⟩
  | drive =>
    simp only [work, drive]
    split_ifs <;> exact .inr (.inr (.untouched rfl rfl rfl))
  | send len =>
    simp only [work, send]
    split_ifs <;> exact .inr (.inr (.untouched rfl rfl rfl))
  | teardown => exact .inr (.inl rfl)

/-- The cell is one of the 24 slots of the pixel that a step of D_PIXEL encodes (43_controller.md R99). -/
def EncodedNow (s : State) (a : Nat) : Prop :=
  s.phase = .dPixel ∧ slot (regI s) 0 0 ≤ a ∧ a ≤ slot (regI s) 2 7

/-- Of the micro-steps only D_ALLOC moves the size, and only D_PIXEL writes cells besides it, those of its pixel. -/
theorem microStep_keepsCells (h : microStep s = .next t) :
    s.phase = .dAlloc ∨ KeepsCellsBut (EncodedNow s) s t := by
  refine microStep_cases (fun s t => s.phase = .dAlloc ∨ KeepsCellsBut (EncodedNow s) s t) ?idle ?size ?alloc
    ?allocFailed ?mismatched ?pixel ?complete ?undef ?issued ?notBegun ?noWrite ?hold ?written ?closed s t h
  case alloc => exact fun s hp => .inl hp
  case allocFailed => exact fun s hp => .inl hp
  case pixel =>
    refine fun s b0 b1 b2 hp _ => .inr ⟨by simp, by simp, fun a => ?_⟩
    have hread := putPixel_read_or_slot (regI s) b0 b1 b2 (takePixel b0 b1 b2 (askHasNext s)) a
    simpa [EncodedNow, hp] using hread
  case size => exact fun s _ => .inr (.untouched rfl rfl rfl)
  case closed => exact fun s _ => .inr (.untouched rfl rfl rfl)
  all_goals intros; exact .inr .untouched

/-- Settles O55: a command's own work writes the buffer only in ENSURE and TEARDOWN, a micro-step only in D_ALLOC and
D_PIXEL, and the rest of a step never. -/
theorem bufferFrame : Obligations.BufferFrame := by
  intro s t h
  obtain ⟨_, ⟨w, i, hw, hd, h⟩ | ⟨w, _, _, _, rfl⟩ | ⟨hm, h⟩⟩ := step_cases s t h
  · obtain ⟨_, ⟨_, rfl⟩ | ⟨_, rfl⟩ | ⟨_, rfl⟩⟩ := exec_cases i _ t h
    · exact .inr (.inr (.inr ⟨rfl, rfl, fun _ => .inl rfl⟩))
    · exact .inr (.inr (.inr ⟨rfl, rfl, fun _ => .inl rfl⟩))
    · obtain ⟨req, rfl⟩ | rfl | hkept := work_keepsCells i (takeWord w s)
      · exact .inl ⟨w, req, hw, hd⟩
      · exact .inr (.inl ⟨w, hw, hd⟩)
      · exact .inr (.inr (.inr ⟨hkept.bufSize, hkept.allocCount, fun a => (hkept.cells a).imp_right False.elim⟩))
  · exact .inr (.inr (.inr ⟨rfl, rfl, fun _ => .inl rfl⟩))
  · obtain halloc | hkept := microStep_keepsCells h
    · exact .inr (.inr (.inl ⟨hm, halloc⟩))
    · exact .inr (.inr (.inr ⟨hkept.bufSize, hkept.allocCount, fun a => (hkept.cells a).imp_right (⟨hm, ·⟩)⟩))

/-! ### What reaches the line -/

/-- New events at the end of the history put their bits at the end of the line. -/
theorem line_of_append {new : List Event} (h : t.events = s.events ++ new) :
    line t = line s ++ new.flatMap eventLine := by
  simp [line, h]

/-- New events of which none is a write leave the line as it is. -/
theorem line_of_dark {new : List Event} (h : t.events = s.events ++ new) (hdark : new.flatMap eventLine = []) :
    line t = line s := by
  rw [line_of_append h, hdark, List.append_nil]

theorem line_of_events_eq (h : t.events = s.events) : line t = line s := by
  unfold line
  rw [h]

theorem line_finish (code : ResultCode) (value : Option Nat) (symbols : Option (List Byte)) (s : State) :
    line (finish code value symbols s) = line s := line_of_dark (finish_events code value symbols s) rfl

/-- `ensureCapacity` records an allocation or a refused one, if anything. -/
theorem line_ensureCapacity (req : Nat) (s : State) : line (ensureCapacity req s).2 = line s := by
  obtain ⟨_, h⟩ | ⟨_, _, h⟩ | ⟨_, _, _, h⟩ | ⟨_, _, _, _, h⟩ | ⟨_, _, _, _, h⟩ :=
    ensureCapacity_cases req s <;> rw [h]
  · exact line_of_dark (reallocate_events 0 s) rfl
  · exact line_of_dark (emit_events _ s) rfl
  · exact line_of_dark (reallocate_events req (allocAsked s)) rfl
  · exact line_of_dark (emit_events _ (allocAsked s)) rfl

/-- No command's own work puts a bit on the line. -/
theorem work_line (i : Instr) (s : State) : line (work i s) = line s := by
  cases i with
  | init =>
    simp only [work, init]
    split_ifs
    · exact line_of_dark (raise_events _ s) rfl
    · rw [line_of_dark (opened_events _ _) rfl]
      exact line_of_dark (emit_events _ (openAsked (accept .init s))) rfl
  | maxrate => exact line_finish _ _ _ (accept .maxrate s)
  | encode b => exact line_finish _ _ _ (accept (.encode b) s)
  | ensure req =>
    simp only [work, ensure, line_finish]
    exact line_ensureCapacity req (accept (.ensure req) s)
  | drive =>
    simp only [work, drive]
    split_ifs
    · exact line_of_dark (raise_events _ s) rfl
    · exact line_of_events_eq rfl
  | send len =>
    simp only [work, send]
    split_ifs
    · exact line_of_dark (raise_events _ s) rfl
    · exact line_of_dark (raise_events _ s) rfl
    · exact line_of_dark (raise_events _ s) rfl
    · exact line_of_events_eq (sendAccepted_events len s)
  | teardown =>
    simp only [work, teardown, line_finish]
    exact line_of_dark (release_events (accept .teardown s)) (by split <;> rfl)

/-- No phase but S_WRITE puts a bit on the line. -/
theorem microStep_line_of_phase_ne (hp : s.phase ≠ .sWrite) (h : microStep s = .next t) : line t = line s := by
  refine microStep_cases (fun s t => s.phase ≠ .sWrite → line t = line s) ?idle ?size ?alloc ?allocFailed ?mismatched
    ?pixel ?complete ?undef ?issued ?notBegun ?noWrite ?hold ?written ?closed s t h hp
  case idle => exact fun s _ _ => rfl
  case size => exact fun s _ _ => line_of_dark (new := [.srcSize (sizeAnswer s)]) rfl rfl
  case alloc => exact fun s _ _ => line_ensureCapacity (regReq s) s
  case allocFailed => exact fun s _ _ => (line_finish _ _ _ _).trans (line_ensureCapacity (regReq s) s)
  case mismatched =>
    exact fun s _ _ => (line_finish _ _ _ _).trans (line_of_dark (askHasNext_events s) rfl)
  case pixel =>
    intro s b0 b1 b2 _ _ _
    calc line (pixelDone (putPixel (regI s) b0 b1 b2 (takePixel b0 b1 b2 (askHasNext s))))
      _ = line (putPixel (regI s) b0 b1 b2 (takePixel b0 b1 b2 (askHasNext s))) :=
        line_of_dark (pixelDone_events _) rfl
      _ = line (takePixel b0 b1 b2 (askHasNext s)) := line_of_events_eq (putPixel_events _ _ _ _ _)
      _ = line (askHasNext s) := line_of_dark (takePixel_events _ _ _ _) rfl
      _ = line s := line_of_dark (askHasNext_events s) rfl
  case complete =>
    exact fun s _ _ => (line_of_events_eq (frameComplete_events _)).trans (line_of_dark (askHasNext_events s) rfl)
  case undef => exact fun s _ _ _ => line_of_dark (raise_events _ s) rfl
  case issued =>
    exact fun s bytes _ _ _ => (line_of_events_eq (writeIssued_events bytes _)).trans
      (line_of_dark (emit_events _ (beginAsked s)) rfl)
  case notBegun =>
    exact fun s _ _ => (line_of_dark (beginFailed_events _) rfl).trans
      (line_of_dark (emit_events _ (beginAsked s)) rfl)
  case noWrite => exact fun s _ _ _ => rfl
  case hold => exact fun s hp hne => absurd hp hne
  case written => exact fun s _ _ _ hp _ hne => absurd hp hne
  case closed => exact fun s _ _ => (line_finish _ _ _ _).trans (line_of_dark (emit_events .busEnd s) rfl)

/-- A completed write puts the bits of its emitted bytes on the line (42_transmit.md R89). -/
theorem line_writeCompleted (bytes : List Byte) (e : Nat) (ok : Bool) (s : State) :
    line (writeCompleted bytes e ok s) = line s ++ lineBits bytes (min e bytes.length) := by
  simp [line_of_append (writeCompleted_events bytes e ok s), eventLine]

theorem microStep_of_sWrite (hp : s.phase = .sWrite) : microStep s = .next (phaseSWrite s) := by
  simp [microStep, hp]

/-- Phase S_WRITE puts a bit on the line only where the Bus completes the pending write. -/
theorem phaseSWrite_line_of_pending (h : s.env.busReq = none ∨ writeAnswer s = none) :
    line (phaseSWrite s) = line s := by
  obtain ⟨_, he⟩ | ⟨bytes, hreq, ⟨_, he⟩ | ⟨e, ok, hans, _⟩⟩ := phaseSWrite_cases s
  · rw [he]
  · rw [he]
    exact line_of_events_eq rfl
  · simp [hreq, hans] at h

/-- Where the Bus completes the pending write, phase S_WRITE is that completion. -/
theorem phaseSWrite_of_completed {bytes : List Byte} {e : Nat} {ok : Bool} (hreq : s.env.busReq = some bytes)
    (hans : writeAnswer s = some (e, ok)) : phaseSWrite s = writeCompleted bytes e ok (writeAsked s) := by
  simp [phaseSWrite, hreq, hans]

/-- A word of the Host puts no bit on the line, whatever becomes of it. -/
theorem step_line_of_hostMove_ne_none (hm : hostMove s ≠ none) (h : step s = .next t) : line t = line s := by
  have htaken (w : Word) : line (takeWord w s) = line s := line_of_dark (takeWord_events w s) rfl
  obtain ⟨_, ⟨w, i, _, _, h⟩ | ⟨w, _, _, _, rfl⟩ | ⟨hsilent, _⟩⟩ := step_cases s t h
  · obtain ⟨_, ⟨_, rfl⟩ | ⟨_, rfl⟩ | ⟨_, rfl⟩⟩ := exec_cases i _ t h
    · exact (line_of_dark (raise_events _ _) rfl).trans (htaken w)
    · exact (line_of_dark (raise_events _ _) rfl).trans (htaken w)
    · exact (work_line i _).trans (htaken w)
  · exact (line_of_dark (raise_events _ _) rfl).trans (htaken w)
  · exact absurd hsilent hm

/-- A silent step is its phase's micro-step. -/
theorem microStep_of_step_silent (hm : hostMove s = none) (h : step s = .next t) :
    microStep (hostMoved s) = .next t := by
  rw [← step_silent s (step_cases s t h).1 hm, h]

/-- A silent step in S_WRITE is what the Bus does with the pending write. -/
theorem step_of_sWrite (hm : hostMove s = none) (hp : s.phase = .sWrite) (h : step s = .next t) :
    t = phaseSWrite (hostMoved s) := by
  have hmicro := microStep_of_step_silent hm h
  rw [microStep_of_sWrite (s := hostMoved s) hp] at hmicro
  exact (Host.Outcome.next.inj hmicro).symm

/-- Settles O60: a completed write adds the bits of its emitted bytes; a word of the Host, another phase, and a write
that is not pending or not completed add none. -/
theorem onlyACompletedWriteReachesTheLine : Obligations.OnlyACompletedWriteReachesTheLine := by
  intro s t h
  constructor
  · intro bytes e ok hm hp hreq hans
    rw [step_of_sWrite hm hp h, phaseSWrite_of_completed (s := hostMoved s) hreq hans, line_writeCompleted]
    rfl
  · intro hwhy
    by_cases hm : hostMove s = none
    · by_cases hp : s.phase = .sWrite
      · have hpending : s.env.busReq = none ∨ writeAnswer s = none := by simpa [hm, hp] using hwhy
        rw [step_of_sWrite hm hp h]
        exact phaseSWrite_line_of_pending (s := hostMoved s) hpending
      · exact microStep_line_of_phase_ne (s := hostMoved s) hp (microStep_of_step_silent hm h)
    · exact step_line_of_hostMove_ne_none hm h

end Sys2Proof.Machine
end

section
/-! Proofs of the family of 30_encoding.md: the word of a command as a number (R59 to R62), the decoder against it (R63,
R64), what a step does with an illegal word (R64), and the assembler (R67). -/

namespace Sys2Proof

/-! ### The fields of a word as numbers (R59) -/

theorem opField_toNat (w : Word) : (opField w).toNat = w.toNat % 16 := by simp [opField]

theorem rsvField_toNat (w : Word) : (rsvField w).toNat = w.toNat / 16 % 16 := by
  simp [rsvField, Nat.shiftRight_eq_div_pow]

theorem opndField_toNat (w : Word) : (opndField w).toNat = w.toNat / 256 := by
  simp only [opndField, BitVec.extractLsb'_toNat, Nat.shiftRight_eq_div_pow]
  omega

theorem byteField_toNat (w : Word) : (byteField w).toNat = w.toNat / 256 % 256 := by
  simp [byteField, Nat.shiftRight_eq_div_pow]

theorem encodeMbzField_toNat (w : Word) : (encodeMbzField w).toNat = w.toNat / 65536 := by
  simp only [encodeMbzField, BitVec.extractLsb'_toNat, Nat.shiftRight_eq_div_pow]
  omega

theorem rsvField_eq_zero_iff (w : Word) : rsvField w = 0 ↔ w.toNat / 16 % 16 = 0 := by
  rw [← BitVec.toNat_inj, rsvField_toNat]; rfl

theorem opndField_eq_zero_iff (w : Word) : opndField w = 0 ↔ w.toNat / 256 = 0 := by
  rw [← BitVec.toNat_inj, opndField_toNat]; rfl

theorem encodeMbzField_eq_zero_iff (w : Word) : encodeMbzField w = 0 ↔ w.toNat / 65536 = 0 := by
  rw [← BitVec.toNat_inj, encodeMbzField_toNat]; rfl

/-! ### The word of a command as a number -/

/-- The number of the command's word, in full: the operand above the opcode (30_encoding.md R60, R61, R67). -/
def commandNumber : Instr → Nat
  | .init => 1
  | .maxrate => 2
  | .encode b => b.toNat * 256 + 3
  | .ensure req => req * 256 + 4
  | .drive => 5
  | .send len => len * 256 + 6
  | .teardown => 7

/-- The encoder places the operand bits above RSV = 0 and the opcode (R59). -/
theorem encode_toNat (i : Instr) : (encode i).toNat = (operandBits i).toNat * 256 + (opcode i).toNat := by
  have hop : (opcode i).toNat < 2 ^ 4 := (opcode i).isLt
  rw [encode, BitVec.toNat_append, BitVec.toNat_append, ← Nat.shiftLeft_add_eq_or_of_lt hop]
  simp [Nat.shiftLeft_eq, Nat.mul_assoc]

/-- The well-formed commands are those whose number a word can hold. -/
theorem wf_iff_commandNumber_lt (i : Instr) : i.wf = true ↔ commandNumber i < 2 ^ 32 := by
  cases i with
  | ensure n | send n =>
    refine decide_eq_true_iff.trans ?_
    rw [commandNumber, maxOperand]
    omega
  | encode b =>
    have hb := b.isLt
    refine iff_of_true rfl ?_
    rw [commandNumber]
    omega
  | init | maxrate | drive | teardown => exact iff_of_true rfl (by decide)

/-- A well-formed command's word loses none of its operand. -/
theorem encode_toNat_of_wf (i : Instr) (hwf : i.wf = true) : (encode i).toNat = commandNumber i := by
  rw [encode_toNat]
  cases i with
  | ensure n | send n =>
    have hn : n < 2 ^ 24 := Nat.lt_succ_of_le (of_decide_eq_true hwf)
    simpa [operandBits, opcode, commandNumber] using hn
  | encode b =>
    have hb : b.toNat < 2 ^ 24 := b.isLt.trans (by decide)
    simpa [operandBits, opcode, commandNumber] using hb
  | init | maxrate | drive | teardown => rfl

/-- The well-formed command whose number a word is has that very word. -/
theorem wf_and_encode_eq_of_toNat (w : Word) (i : Instr) (h : w.toNat = commandNumber i) :
    i.wf = true ∧ encode i = w := by
  have hwf : i.wf = true := (wf_iff_commandNumber_lt i).2 (h ▸ w.isLt)
  exact ⟨hwf, BitVec.eq_of_toNat_eq ((encode_toNat_of_wf i hwf).trans h.symm)⟩

/-! ### The decoder (R63) -/

theorem decodeBare_eq_command_iff (w : Word) (i j : Instr) :
    decodeBare w j = .command i ↔ w.toNat / 256 = 0 ∧ i = j := by
  rw [← opndField_eq_zero_iff, decodeBare]
  split_ifs with h
  · simp [h, eq_comm]
  · simp only [h, false_and]

/-- No bit of a word that decodes is dropped: its number is the command's. -/
theorem toNat_of_decode (w : Word) (i : Instr) (h : decode w = .command i) : w.toNat = commandNumber i := by
  have hop := opField_toNat w
  unfold decode at h
  by_cases hrsv : rsvField w = 0
  · rw [if_neg (not_not_intro hrsv)] at h
    rw [rsvField_eq_zero_iff] at hrsv
    split at h
    case h_1 | h_2 | h_5 | h_7 =>
      obtain ⟨hopnd, rfl⟩ := (decodeBare_eq_command_iff w i _).1 h
      simp only [commandNumber]
      omega
    case h_3 =>
      split_ifs at h with hmbz
      obtain rfl : Instr.encode (byteField w) = i := Decoded.command.inj h
      rw [encodeMbzField_eq_zero_iff] at hmbz
      rw [commandNumber, byteField_toNat]
      omega
    case h_4 | h_6 =>
      obtain rfl := Decoded.command.inj h
      rw [commandNumber, opndField_toNat]
      omega
    case h_8 => cases h
  · rw [if_pos hrsv] at h
    cases h

/-- The decoder finds in OP, RSV and OPND of a command's word what the encoder put there. -/
theorem decode_of_toNat (w : Word) (i : Instr) (h : w.toNat = commandNumber i) : decode w = .command i := by
  obtain ⟨hop, hrsv⟩ : Laws.WordShape.Statement i := Laws.WordShape.fields_of_parts _ _
  rw [(wf_and_encode_eq_of_toNat w i h).2] at hop hrsv
  cases i with
  | init | maxrate | drive | teardown =>
    have hopnd : opndField w = 0 := by
      rw [opndField_eq_zero_iff, h, commandNumber]
    simp [decode, decodeBare, hop, hrsv, hopnd, opcode]
  | ensure n | send n =>
    have hopnd : (opndField w).toNat = n := by
      rw [opndField_toNat, h, commandNumber]
      omega
    simp [decode, hop, hrsv, hopnd, opcode]
  | encode b =>
    have hb := b.isLt
    have hmbz : encodeMbzField w = 0 := by
      rw [encodeMbzField_eq_zero_iff, h, commandNumber]
      omega
    have hbyte : byteField w = b := by
      refine BitVec.eq_of_toNat_eq ?_
      rw [byteField_toNat, h, commandNumber]
      omega
    simp [decode, hop, hrsv, hmbz, hbyte, opcode]

/-- The decode function of R63 in one equivalence: a word decodes to exactly the command whose number it is. -/
theorem decode_eq_command_iff (w : Word) (i : Instr) : decode w = .command i ↔ w.toNat = commandNumber i :=
  ⟨toNat_of_decode w i, decode_of_toNat w i⟩

/-- Settles O3: the word of a well-formed command has the command's number. -/
theorem decodeOfEncode : Obligations.DecodeOfEncode :=
  fun i hwf => decode_of_toNat (encode i) i (encode_toNat_of_wf i hwf)

/-- Settles O4: the word has the number of its command, and so has the command's own word. -/
theorem encodeOfDecode : Obligations.EncodeOfDecode :=
  fun w i h => wf_and_encode_eq_of_toNat w i (toNat_of_decode w i h)

/-! ### The illegal words (R63, R64) -/

theorem exists_illegal_iff (w : Word) : (∃ why, decode w = .illegal why) ↔ ∀ i, decode w ≠ .command i := by
  cases decode w <;> simp

/-- R64's list of the illegal words. -/
theorem illegal_iff (w : Word) : (∃ why, decode w = .illegal why) ↔
    (w.toNat % 16 = 0 ∨ 8 ≤ w.toNat % 16 ∨ w.toNat / 16 % 16 ≠ 0 ∨
      (256 ≤ w.toNat ∧ (w.toNat % 16 = 1 ∨ w.toNat % 16 = 2 ∨ w.toNat % 16 = 5 ∨ w.toNat % 16 = 7)) ∨
      (65536 ≤ w.toNat ∧ w.toNat % 16 = 3)) := by
  simp only [exists_illegal_iff, ne_eq, decode_eq_command_iff]
  constructor
  · intro hnone
    by_contra hlegal
    have hop : w.toNat % 16 = 1 ∨ w.toNat % 16 = 2 ∨ w.toNat % 16 = 3 ∨ w.toNat % 16 = 4 ∨ w.toNat % 16 = 5 ∨
      w.toNat % 16 = 6 ∨ w.toNat % 16 = 7 := by omega
    obtain h | h | h | h | h | h | h := hop
    · exact hnone .init (by rw [commandNumber]; omega)
    · exact hnone .maxrate (by rw [commandNumber]; omega)
    · exact hnone (.encode (BitVec.ofNat 8 (w.toNat / 256))) (by rw [commandNumber, BitVec.toNat_ofNat]; omega)
    · exact hnone (.ensure (w.toNat / 256)) (by rw [commandNumber]; omega)
    · exact hnone .drive (by rw [commandNumber]; omega)
    · exact hnone (.send (w.toNat / 256)) (by rw [commandNumber]; omega)
    · exact hnone .teardown (by rw [commandNumber]; omega)
  · intro hillegal i hnum
    cases i with
    | encode b =>
      have hb := b.isLt
      simp only [commandNumber] at hnum
      omega
    | init | maxrate | ensure | drive | send | teardown =>
      simp only [commandNumber] at hnum
      omega

/-- Settles O1: a legal word is the number of the command named, and the illegal ones are in `illegal_iff`'s list. -/
theorem decodeByFields : Obligations.DecodeByFields := by
  intro w op rsv opnd
  simp only [illegal_iff, decode_eq_command_iff, commandNumber, BitVec.toNat_ofNat]
  refine ⟨by omega, fun hrsv => ?_⟩
  and_intros <;> omega

/-! ### The match and the mask of each command (R62) -/

theorem and_lowByteMask_toNat (w : Word) : (w &&& 0x000000FF).toNat = w.toNat % 256 :=
  (BitVec.toNat_and w _).trans (Nat.and_two_pow_sub_one_eq_mod w.toNat 8)

/-- ENCODE's mask drops the operand byte alone. -/
theorem and_encodeMask_toNat (w : Word) : (w &&& 0xFFFF00FF).toNat = w.toNat / 65536 * 65536 + w.toNat % 256 := by
  have hlow : (w.toNat &&& 0xFFFF00FF) % 65536 = w.toNat % 256 := by
    rw [← Nat.and_two_pow_sub_one_eq_mod _ 16, Nat.and_assoc]
    exact Nat.and_two_pow_sub_one_eq_mod w.toNat 8
  have hhigh : (w.toNat &&& 0xFFFF00FF) / 65536 = w.toNat / 65536 := by
    rw [Nat.and_div_two_pow (n := 16)]
    exact (Nat.and_two_pow_sub_one_eq_mod _ 16).trans (Nat.mod_eq_of_lt (by omega))
  rw [BitVec.toNat_and]
  change w.toNat &&& 0xFFFF00FF = _
  omega

/-- The words ENCODE's mask and match select. -/
theorem exists_decode_encode_iff (w : Word) :
    (∃ b, decode w = .command (.encode b)) ↔ w.toNat / 65536 * 65536 + w.toNat % 256 = 3 := by
  simp only [decode_eq_command_iff, commandNumber]
  constructor
  · rintro ⟨b, h⟩
    have hb := b.isLt
    omega
  · intro h
    refine ⟨BitVec.ofNat 8 (w.toNat / 256), ?_⟩
    rw [BitVec.toNat_ofNat]
    omega

theorem exists_decode_ensure_iff (w : Word) : (∃ req, decode w = .command (.ensure req)) ↔ w.toNat % 256 = 4 := by
  simp only [decode_eq_command_iff, commandNumber]
  exact ⟨fun ⟨req, h⟩ => by omega, fun h => ⟨w.toNat / 256, by omega⟩⟩

theorem exists_decode_send_iff (w : Word) : (∃ len, decode w = .command (.send len)) ↔ w.toNat % 256 = 6 := by
  simp only [decode_eq_command_iff, commandNumber]
  exact ⟨fun ⟨len, h⟩ => by omega, fun h => ⟨w.toNat / 256, by omega⟩⟩

/-- A mask of all ones keeps the whole word. -/
theorem and_fullMask (w : Word) : w &&& 0xFFFFFFFF = w := BitVec.and_allOnes

/-- Settles O2: each mask leaves of the word's number what the command fixes of its own. -/
theorem matchAndMaskSelectTheCommand : Obligations.MatchAndMaskSelectTheCommand := by
  intro w
  rw [exists_decode_encode_iff, exists_decode_ensure_iff, exists_decode_send_iff]
  simp only [decode_eq_command_iff, ← BitVec.toNat_inj, and_fullMask, and_encodeMask_toNat, and_lowByteMask_toNat]
  exact ⟨.rfl, .rfl, .rfl, .rfl, .rfl, .rfl, .rfl⟩

/-! ### The assembler (R67) -/

theorem assembleParts_none_eq_some_iff (mnemonic : List Char) (i : Instr) :
    assembleParts mnemonic none = some i ↔
      mnemonic = ['I', 'N', 'I', 'T'] ∧ i = .init ∨
      mnemonic = ['M', 'A', 'X', 'R', 'A', 'T', 'E'] ∧ i = .maxrate ∨
      mnemonic = ['D', 'R', 'I', 'V', 'E'] ∧ i = .drive ∨
      mnemonic = ['T', 'E', 'A', 'R', 'D', 'O', 'W', 'N'] ∧ i = .teardown := by
  constructor
  · intro h
    simp only [assembleParts] at h
    split_ifs at h with hinit hmaxrate hdrive hteardown <;> obtain rfl := Option.some.inj h
    · exact .inl ⟨hinit, rfl⟩
    · exact .inr (.inl ⟨hmaxrate, rfl⟩)
    · exact .inr (.inr (.inl ⟨hdrive, rfl⟩))
    · exact .inr (.inr (.inr ⟨hteardown, rfl⟩))
  · rintro (⟨rfl, rfl⟩ | ⟨rfl, rfl⟩ | ⟨rfl, rfl⟩ | ⟨rfl, rfl⟩) <;> rfl

theorem assembleParts_some_eq_some_iff (mnemonic : List Char) (v : Nat) (i : Instr) :
    assembleParts mnemonic (some v) = some i ↔
      mnemonic = ['E', 'N', 'C', 'O', 'D', 'E'] ∧ v ≤ 255 ∧ i = .encode (BitVec.ofNat 8 v) ∨
      mnemonic = ['E', 'N', 'S', 'U', 'R', 'E'] ∧ v ≤ 16777215 ∧ i = .ensure v ∨
      mnemonic = ['S', 'E', 'N', 'D'] ∧ v ≤ 16777215 ∧ i = .send v := by
  constructor
  · intro h
    simp only [assembleParts] at h
    split_ifs at h with hencode hv hensure hv hsend hv <;> obtain rfl := Option.some.inj h
    · exact .inl ⟨hencode, Nat.le_of_lt_succ hv, rfl⟩
    · exact .inr (.inl ⟨hensure, hv, rfl⟩)
    · exact .inr (.inr ⟨hsend, hv, rfl⟩)
  · rintro (⟨rfl, hv, rfl⟩ | ⟨rfl, hv, rfl⟩ | ⟨rfl, hv, rfl⟩)
    · exact if_pos (Nat.lt_succ_of_le hv)
    · exact if_pos hv
    · exact if_pos hv

theorem ne_blank_of_notMem {mnemonic : List Char} (h : ' ' ∉ mnemonic) :
    ∀ c ∈ mnemonic, decide (c ≠ ' ') = true :=
  fun _ hc => decide_eq_true (ne_of_mem_of_not_mem hc h)

theorem assemble_of_noBlank (mnemonic : List Char) (h : ' ' ∉ mnemonic) :
    assemble mnemonic = (assembleParts mnemonic none).map encode := by
  unfold assemble
  rw [List.takeWhile_eq_self_iff.2 (ne_blank_of_notMem h), List.dropWhile_eq_nil_iff.2 (ne_blank_of_notMem h)]

theorem assemble_blank (mnemonic text : List Char) (h : ' ' ∉ mnemonic) :
    assemble (mnemonic ++ ' ' :: text) =
      (parseNumber text).bind fun v => (assembleParts mnemonic (some v)).map encode := by
  unfold assemble
  rw [List.takeWhile_append_of_pos (ne_blank_of_notMem h), List.dropWhile_append_of_pos (ne_blank_of_notMem h)]
  cases hv : parseNumber text <;> simp [hv]

/-- Settles O6: what assembles without and with an operand, the number of each word, and the line cut at its blank. -/
theorem assembledOperandsAreInRange : Obligations.AssembledOperandsAreInRange := by
  refine ⟨?parts, ?byte, ?number, ?line⟩
  case parts =>
    intro mnemonic operand i
    cases operand with
    | none => simp [assembleParts_none_eq_some_iff]
    | some v => simp [assembleParts_some_eq_some_iff]
  case byte =>
    intro v hv
    rw [encode_toNat_of_wf _ rfl, commandNumber, BitVec.toNat_ofNat]
    omega
  case number =>
    intro v hv
    exact ⟨encode_toNat_of_wf (.ensure v) (decide_eq_true hv), encode_toNat_of_wf (.send v) (decide_eq_true hv)⟩
  case line =>
    exact fun mnemonic h => ⟨assemble_of_noBlank mnemonic h, fun text => assemble_blank mnemonic text h⟩

end Sys2Proof

namespace Sys2Proof.Machine

/-! ### A step that takes an illegal word (R64) -/

/-- The companion of `step_command` for an illegal word (30_encoding.md R64). -/
theorem step_illegal (s : State) (w : Word) (why : IllegalWord) (hl : Live s) (hm : hostMove s = some w)
    (hd : decode w = .illegal why) : step s = .next (raise .illegalCommand (takeWord w s)) := by
  simp [step, halted_of_live s hl, hm, hd]

theorem hostMove_of_host_eq_cons {s : State} {w : Word} {rest : List (Option Word)} (h : s.env.host = some w :: rest) :
    hostMove s = some w := by
  simp [hostMove, h, nextAnswer]

/-- Settles O8: `illegal_iff` lists the words, and a step that takes one only raises the fault. -/
theorem illegalWordFaults : Obligations.IllegalWordFaults := by
  refine ⟨illegal_iff, fun s w why rest hl hhost hd => ?_⟩
  rw [step_illegal s w why hl (hostMove_of_host_eq_cons hhost) hd]
  simp [raise, takeWord, emit, withEnv, hhost]

end Sys2Proof.Machine
end

section
/-! Proofs of the family of 40_encoder.md: the symbols of a byte (R69), their inverse (R71), and ENCODE (R70). -/

namespace Sys2Proof.Machine

/-! ### The symbols of a byte -/

/-- The symbols as one expression over the bit positions 7 down to 0 (40_encoder.md R69). -/
theorem enc_eq_map (c : Config) (b : Byte) : enc c b = (List.range 8).reverse.map fun k => sym c (bit b k) := rfl

/-- Settles O16: position `k` of the symbols carries bit `7 - k`, and `sym` chooses its pattern. -/
theorem symbolsAreMsbFirst : Obligations.SymbolsAreMsbFirst := by
  intro c b
  rw [enc_eq_map]
  refine ⟨by simp, fun k hk => ?_⟩
  have hpos : (List.range 8).reverse[k]? = some (7 - k) := by simp [hk]
  rw [List.getElem?_map, hpos, Option.map_some, sym, bit]

/-! ### The inverse of the byte encoder -/

/-- With distinct patterns a symbol tells its bit (40_encoder.md R71). -/
theorem desym_sym {c : Config} (hc : c.onePattern ≠ c.zeroPattern) (x : Bool) : desym c (sym c x) = some x := by
  cases x with
  | false => simp [desym, sym, hc.symm]
  | true => simp [desym, sym]

theorem decFrom_sym_cons {c : Config} (hc : c.onePattern ≠ c.zeroPattern) (acc : Nat) (x : Bool) (rest : List Byte) :
    decFrom c acc (sym c x :: rest) = decFrom c (2 * acc + x.toNat) rest := by
  simp [decFrom, desym_sym hc]

/-- Bit `n` below the bits above it gives the bits from `n` up. -/
theorem two_mul_div_add_bit (b : Byte) (n : Nat) :
    2 * (b.toNat / 2 ^ (n + 1)) + (bit b n).toNat = b.toNat / 2 ^ n := by
  have hbit : (bit b n).toNat = b.toNat / 2 ^ n % 2 := Nat.toNat_testBit b.toNat n
  rw [hbit, Nat.pow_succ, ← Nat.div_div_eq_div_mul, Nat.div_add_mod]

/-- The invariant of `dec`: where the bits from `n` up are decoded, the symbols of the bits below `n` complete the
byte (40_encoder.md R71). -/
theorem decFrom_lower_symbols {c : Config} (hc : c.onePattern ≠ c.zeroPattern) (b : Byte) (n : Nat) :
    decFrom c (b.toNat / 2 ^ n) ((List.range n).reverse.map fun k => sym c (bit b k)) = some b.toNat := by
  induction n with
  | zero => simp [decFrom]
  | succ n ih =>
    rw [List.range_succ, List.reverse_concat, List.map_cons, decFrom_sym_cons hc, two_mul_div_add_bit]
    exact ih

/-- Settles O17: `decFrom_lower_symbols` at 8, where no bit is decoded yet. -/
theorem symbolsDecodeToTheirByte : Obligations.SymbolsDecodeToTheirByte := by
  intro c b hc
  have hnone : b.toNat / 2 ^ 8 = 0 := Nat.div_eq_of_lt b.isLt
  have hbyte : decFrom c 0 (enc c b) = some b.toNat := by
    rw [enc_eq_map, ← hnone]
    exact decFrom_lower_symbols hc b 8
  have hlen : (enc c b).length = 8 := (symbolsAreMsbFirst c b).1
  simp [dec, hlen, hbyte]

/-! ### ENCODE -/

/-- Settles O19: an accepting state runs ENCODE's own work, which ends the command with OK and the symbols. -/
theorem encodeAnswersTheSymbols : Obligations.EncodeAnswersTheSymbols := by
  intro s b hs
  have hne : (accept (.encode b) s).ctrlState ≠ .transmitting := hs.ctrlState_ne_transmitting
  rw [exec_of_accepting (.encode b) s hs]
  exact congrArg Host.Outcome.next (finish_of_not_transmitting .ok none (some (enc s.cfg b)) _ hne)

end Sys2Proof.Machine
end

section
/-! Proofs of the family of 41_framebuffer.md: `ensureCapacity` (R74 to R79) and ENSURE (R81). -/

namespace Sys2Proof.Machine

variable {s : State} {req : Nat}

/-! ### `ensureCapacity`, an equation per case -/

theorem ensureCapacity_bufSize_self (s : State) : ensureCapacity s.bufSize s = (.ok, s) := if_pos rfl

theorem ensureCapacity_zero (hne : s.bufSize ≠ 0) : ensureCapacity 0 s = (.ok, reallocate 0 s) := by
  rw [ensureCapacity, if_neg hne.symm, if_pos rfl]

theorem ensureCapacity_beyond_capacity (hne : req ≠ s.bufSize) (hpos : 0 < req) (hcap : s.cfg.bufCapacity < req) :
    ensureCapacity req s = (.allocationFailure, emit (.allocFail s.bufSize req) s) := by
  rw [ensureCapacity, if_neg hne, if_neg hpos.ne', if_pos hcap]

/-- Within the capacity the Allocator decides (41_framebuffer.md R78). -/
theorem ensureCapacity_within_capacity (hne : req ≠ s.bufSize) (hpos : 0 < req) (hcap : req ≤ s.cfg.bufCapacity) :
    ensureCapacity req s = if allocAnswer s then (.ok, reallocate req (allocAsked s))
      else (.allocationFailure, emit (.allocFail s.bufSize req) (allocAsked s)) := by
  rw [ensureCapacity, if_neg hne, if_neg hpos.ne', if_neg hcap.not_gt]

/-- `ensureCapacity` neither reads nor writes the command in progress. -/
theorem ensureCapacity_accept (i : Instr) (req : Nat) (s : State) :
    ensureCapacity req (accept i s) = Prod.map id (accept i) (ensureCapacity req s) := by
  simp only [ensureCapacity, apply_ite (Prod.map id (accept i))]
  rfl

/-! ### ENSURE -/

/-- ENSURE in an accepting state answers what `ensureCapacity` does, with the size after it (41_framebuffer.md R81). -/
theorem exec_ensure_of_accepting (hs : Accepting s) {code : ResultCode} {t : State}
    (h : ensureCapacity req s = (code, t)) :
    exec (.ensure req) s = .next { t with
      status := code
      resp := some { code := code, value := some t.bufSize, symbols := none }
      cmd := none
      phase := .idle
      events := t.events ++ [.resp { code := code, value := some t.bufSize, symbols := none }] } := by
  have haccept : ensureCapacity req (accept (.ensure req) s) = (code, accept (.ensure req) t) := by
    rw [ensureCapacity_accept, h]; rfl
  have hctrl : t.ctrlState = s.ctrlState := by rw [← ensureCapacity_ctrlState req s, h]
  have hne : (accept (.ensure req) t).ctrlState ≠ .transmitting := hctrl ▸ hs.ctrlState_ne_transmitting
  rw [exec_of_accepting (.ensure req) s hs]
  simp only [work, ensure, haccept]
  exact congrArg Host.Outcome.next (finish_of_not_transmitting code (some t.bufSize) none _ hne)

/-- Settles O21: within the capacity a granted request reallocates, and `reallocate_read` says what the cells hold. -/
theorem ensureReplacesTheAllocation : Obligations.EnsureReplacesTheAllocation := by
  intro s req hs hne hpos hcap hgranted
  have hok : ensureCapacity req s = (.ok, reallocate req (allocAsked s)) := by
    rw [ensureCapacity_within_capacity hne hpos hcap, if_pos hgranted]
  refine ⟨(reallocate req (allocAsked s)).buf, Memory.zeros_wf _ _, reallocate_read req (allocAsked s), ?_⟩
  rw [exec_ensure_of_accepting hs hok]
  simp [reallocate, emit, withEnv]

/-- Settles O20: the present size is the first case of `ensureCapacity`. -/
theorem ensureSameSizeKeepsTheBuffer : Obligations.EnsureSameSizeKeepsTheBuffer :=
  fun s => ⟨ensureCapacity_bufSize_self s, fun hs => exec_ensure_of_accepting hs (ensureCapacity_bufSize_self s)⟩

/-- Settles O22: the release is a reallocation to size 0, which zeroes no cell. -/
theorem ensureZeroReleases : Obligations.EnsureZeroReleases := by
  intro s hs hne
  rw [exec_ensure_of_accepting hs (ensureCapacity_zero hne)]
  simp [reallocate, emit, Memory.zeros]

/-- Settles O23: of the cases of `ensureCapacity` two fail, one without and one with the Allocator's answer. -/
theorem failedAllocationRetainsTheState : Obligations.FailedAllocationRetainsTheState := by
  intro s req hfail
  obtain ⟨_, h⟩ | ⟨_, _, h⟩ | ⟨_, _, _, h⟩ | ⟨_, _, _, _, h⟩ | ⟨_, _, _, _, h⟩ := ensureCapacity_cases req s <;>
    rw [h] at hfail ⊢
  · exact absurd rfl hfail
  · exact absurd rfl hfail
  · exact ⟨rfl, .inl rfl⟩
  · exact absurd rfl hfail
  · exact ⟨rfl, .inr rfl⟩

/-- Settles O24: beyond the capacity the agents are as before, and within it the Allocator has refused. -/
theorem ensureFailureRetainsTheBuffer : Obligations.EnsureFailureRetainsTheBuffer := by
  intro s req hs hne hpos hfail
  by_cases hcap : s.cfg.bufCapacity < req
  · rw [exec_ensure_of_accepting hs (ensureCapacity_beyond_capacity hne hpos hcap), if_pos hcap]
    simp [emit]
  · have hrefused : allocAnswer s = false := hfail.resolve_left hcap
    have hfailed : ensureCapacity req s = (.allocationFailure, emit (.allocFail s.bufSize req) (allocAsked s)) := by
      rw [ensureCapacity_within_capacity hne hpos (not_lt.1 hcap), hrefused, if_neg Bool.false_ne_true]
    rw [exec_ensure_of_accepting hs hfailed, if_neg hcap]
    simp [emit, withEnv]

end Sys2Proof.Machine
end

section
/-! Proofs of the family of 42_transmit.md: the acceptance of SEND (R84), the phases of a send (R85 to R87, R91), the
bits on the line (R89), and the discipline of bus transactions (R90). -/

namespace Sys2Proof.Machine

variable {s t : State}

/-! ### The discipline of bus transactions -/

/-- A raised fault leaves the transaction where it stands. -/
theorem Txn.after_fault (x : Txn) (c : FaultCode) : x.after (.fault c) = x := by cases x <;> rfl

/-- A word of the Host leaves the transaction where it stands. -/
theorem Txn.after_cmd (x : Txn) (w : Word) : x.after (.cmd w) = x := by cases x <;> rfl

theorem txn_append (events new : List Event) : txn (events ++ new) = new.foldl Txn.after (txn events) :=
  List.foldl_append

/-- New events that lead from the transaction the phase before has open to the one the phase after has open. -/
theorem disciplined_of_append {new : List Event} (hs : Disciplined s) (hevents : t.events = s.events ++ new)
    (hnew : new.foldl Txn.after s.phase.txn = t.phase.txn) : Disciplined t := by
  rw [Disciplined, hevents, txn_append, hs, hnew]

/-- With no transaction open before or after, new events that open none and close none. -/
theorem disciplined_of_closed {new : List Event} (hs : Disciplined s) (hclosed : s.phase.txn = .closed)
    (hevents : t.events = s.events ++ new) (hnew : new.foldl Txn.after .closed = .closed := by rfl)
    (hphase : t.phase.txn = .closed := by rfl) : Disciplined t :=
  disciplined_of_append hs hevents (by rw [hclosed, hnew, hphase])

theorem raise_disciplined (c : FaultCode) (hs : Disciplined s) : Disciplined (raise c s) :=
  disciplined_of_append hs (raise_events c s) (Txn.after_fault _ c)

theorem takeWord_disciplined (w : Word) (hs : Disciplined s) : Disciplined (takeWord w s) :=
  disciplined_of_append hs (takeWord_events w s) (Txn.after_cmd _ w)

/-- A command that ends with no transaction open leaves none open. -/
theorem finish_disciplined (code : ResultCode) (value : Option Nat) (symbols : Option (List Byte))
    (hclosed : s.phase.txn = .closed) (hs : Disciplined s) : Disciplined (finish code value symbols s) :=
  disciplined_of_closed hs hclosed (finish_events code value symbols s)

/-- `ensureCapacity` records an allocation or a refused one, if anything. -/
theorem ensureCapacity_disciplined (req : Nat) (hclosed : s.phase.txn = .closed) (hs : Disciplined s) :
    Disciplined (ensureCapacity req s).2 := by
  obtain ⟨_, h⟩ | ⟨_, _, h⟩ | ⟨_, _, _, h⟩ | ⟨_, _, _, _, h⟩ | ⟨_, _, _, _, h⟩ := ensureCapacity_cases req s <;>
    rw [h]
  · exact hs
  · exact disciplined_of_closed hs hclosed (reallocate_events 0 s) (hphase := hclosed)
  · exact disciplined_of_closed hs hclosed (emit_events _ s) (hphase := hclosed)
  · exact disciplined_of_closed hs hclosed (reallocate_events req (allocAsked s)) (hphase := hclosed)
  · exact disciplined_of_closed hs hclosed (emit_events _ (allocAsked s)) (hphase := hclosed)

/-- A command's own work, begun with no transaction open, opens none. -/
theorem work_disciplined (i : Instr) (hclosed : s.phase.txn = .closed) (hs : Disciplined s) :
    Disciplined (work i s) := by
  cases i with
  | init =>
    simp only [work, init]
    split_ifs
    · exact raise_disciplined _ hs
    · exact disciplined_of_closed
        (new := [.busOpen (openAnswer s),
          .resp { code := if openAnswer s then .ok else .busUnavailable, value := none, symbols := none }])
        hs hclosed (by simp) (hphase := by rw [opened_phase]; rfl)
  | maxrate => exact finish_disciplined _ _ _ hclosed hs
  | encode b => exact finish_disciplined _ _ _ hclosed hs
  | ensure req =>
    exact finish_disciplined _ _ _ (by simpa using hclosed)
      (ensureCapacity_disciplined (s := accept (.ensure req) s) req hclosed hs)
  | drive =>
    simp only [work, drive]
    split_ifs
    · exact raise_disciplined _ hs
    · exact disciplined_of_closed hs hclosed (List.append_nil _).symm
  | send len =>
    simp only [work, send]
    split_ifs
    · exact raise_disciplined _ hs
    · exact raise_disciplined _ hs
    · exact raise_disciplined _ hs
    · exact disciplined_of_closed hs hclosed (List.append_nil _).symm
  | teardown =>
    have hreleased : Disciplined (release (accept .teardown s)) :=
      disciplined_of_closed hs hclosed (release_events (accept .teardown s)) (by split <;> rfl)
        (by simpa using hclosed)
    exact finish_disciplined _ _ _ (by simpa using hclosed) hreleased

/-- A micro-step moves the transaction together with the phase: S_BEGIN opens it, S_WRITE writes it, S_END closes it. -/
theorem microStep_disciplined (hs : Disciplined s) (h : microStep s = .next t) : Disciplined t := by
  refine microStep_cases (fun s t => Disciplined s → Disciplined t) ?idle ?size ?alloc ?allocFailed ?mismatched ?pixel
    ?complete ?undef ?issued ?notBegun ?noWrite ?hold ?written ?closed s t h hs
  case idle => exact fun s _ hs => hs
  case size =>
    exact fun s hp hs => disciplined_of_closed (new := [.srcSize (sizeAnswer s)]) hs (by rw [hp]; rfl) rfl
  case alloc =>
    intro s hp hs
    have hclosed : s.phase.txn = .closed := by rw [hp]; rfl
    exact disciplined_of_closed (ensureCapacity_disciplined (regReq s) hclosed hs) (by simpa using hclosed)
      (List.append_nil _).symm (hphase := by rw [allocated_phase]; split <;> rfl)
  case allocFailed =>
    intro s hp hs
    have hclosed : s.phase.txn = .closed := by rw [hp]; rfl
    exact finish_disciplined _ _ _ (by simpa using hclosed) (ensureCapacity_disciplined (regReq s) hclosed hs)
  case mismatched =>
    intro s hp hs
    have hclosed : s.phase.txn = .closed := by rcases hp with hp | hp <;> rw [hp] <;> rfl
    have hasked : Disciplined (askHasNext s) :=
      disciplined_of_closed hs hclosed (askHasNext_events s) (hphase := hclosed)
    exact finish_disciplined _ _ _ hclosed hasked
  case pixel =>
    intro s b0 b1 b2 hp _ hs
    exact disciplined_of_closed
      (new := [.srcHasNext (hasNextAnswer s), .srcByte 0 b0, .srcByte 1 b1, .srcByte 2 b2, .srcAdvance, .srcDither])
      hs (by rw [hp]; rfl) (by simp) (hphase := by rw [pixelDone_phase]; split <;> rfl)
  case complete => exact fun s hp hs => disciplined_of_closed hs (by rw [hp]; rfl) (askHasNext_events s)
  case undef => exact fun s _ _ hs => raise_disciplined _ hs
  case issued =>
    exact fun s bytes hp _ hs =>
      disciplined_of_append (new := [.busBegin (busCfg s.cfg) true]) hs rfl (by rw [hp]; rfl)
  case notBegun =>
    exact fun s hp hs => disciplined_of_append
      (new := [.busBegin (busCfg s.cfg) false,
        .resp { code := .busUnavailable, value := some (sendValue s), symbols := none }])
      hs (by simp [sendValue, regSendLen]) (by rw [hp]; rfl)
  case noWrite => exact fun s _ _ hs => hs
  case hold => exact fun s _ hs => hs
  case written =>
    exact fun s bytes e ok hp _ hs => disciplined_of_append hs (writeCompleted_events bytes e ok (writeAsked s))
      (by rw [hp]; rfl)
  case closed =>
    exact fun s hp hs => disciplined_of_append
      (new := [.busEnd,
        .resp { code := if regWrOk s then .ok else .busUnavailable, value := some (sendValue s), symbols := none }])
      hs (by simp [phaseSEnd, sendValue, regSendLen]) (by rw [hp]; rfl)

/-- A state that accepts a command stands in IDLE (10_state.md R32). -/
theorem Lifecycle.phase_of_accepting (h : Lifecycle s) (hs : Accepting s) : s.phase = .idle :=
  not_not.1 (mt h.sequence.1 hs.ctrlState_ne_transmitting)

/-- Settles O49: a command is accepted in IDLE only, where no transaction is open, and its work opens none; of the
micro-steps only those of S_BEGIN, S_WRITE and S_END move the transaction, each as its phase does. -/
theorem stepKeepsTheBusDiscipline : Obligations.StepKeepsTheBusDiscipline := by
  intro s t ⟨hlife, hs⟩ h
  obtain ⟨_, ⟨w, i, _, _, h⟩ | ⟨w, _, _, _, rfl⟩ | ⟨_, h⟩⟩ := step_cases s t h
  · obtain ⟨hl, ⟨_, rfl⟩ | ⟨_, rfl⟩ | ⟨hc, rfl⟩⟩ := exec_cases i _ t h
    · exact raise_disciplined _ (takeWord_disciplined w hs)
    · exact raise_disciplined _ (takeWord_disciplined w hs)
    · have hidle : s.phase = .idle := hlife.phase_of_accepting ⟨hl, hc⟩
      exact work_disciplined i (by rw [takeWord_phase, hidle]; rfl) (takeWord_disciplined w hs)
  · exact raise_disciplined _ (takeWord_disciplined w hs)
  · exact microStep_disciplined (s := hostMoved s) hs h

/-! ### The acceptance of SEND -/

theorem readBytes_isNone_iff (len : Nat) : (s.buf.readBytes 0 len).isNone ↔ ¬DefinedBelow s len := by
  simp [← readBytes_isSome_iff]

/-- Settles O28: in READY the checks of SEND are the length within the buffer and the snapshot, and both pass. -/
theorem sendIsAccepted : Obligations.SendIsAccepted := by
  intro s len hl hready hle hdef
  have hread : ¬(s.buf.readBytes 0 len).isNone := by rwa [readBytes_isNone_iff, not_not]
  have hsend : send len s = sendAccepted len s := by
    rw [send, if_neg (by simp [hready]), if_neg hle.not_gt, if_neg hread]
  rw [exec_of_accepting (.send len) s ⟨hl, .inr hready⟩]
  exact congrArg Host.Outcome.next hsend

/-- Settles O29: a length beyond the buffer fails the first check of SEND, and an Undef cell, which leaves no snapshot,
the second. -/
theorem sendOperandFaults : Obligations.SendOperandFaults := by
  intro s len hl hready
  have hinit : s.ctrlState ≠ .uninit := by simp [hready]
  rw [exec_of_accepting (.send len) s ⟨hl, .inr hready⟩]
  refine ⟨fun hlt => ?_, fun hle ⟨a, ha, hundef⟩ => ?_⟩
  · have hsend : send len s = raise .bufferOverrun s := by rw [send, if_neg hinit, if_pos hlt]
    exact congrArg Host.Outcome.next hsend
  · have hread : (s.buf.readBytes 0 len).isNone :=
      (readBytes_isNone_iff len).2 fun hdef => by simpa [hundef] using hdef a ha
    have hsend : send len s = raise .undefinedRead s := by
      rw [send, if_neg hinit, if_neg hle.not_gt, if_pos hread]
    exact congrArg Host.Outcome.next hsend

/-! ### The phases of a send -/

theorem microStep_of_sBegin (hp : s.phase = .sBegin) : microStep s = .next (phaseSBegin s) := by
  simp [microStep, hp]

theorem microStep_of_sEnd (hp : s.phase = .sEnd) : microStep s = .next (phaseSEnd s) := by
  simp [microStep, hp]

/-- A command that ends in a transmission leaves READY (30_encoding.md R66). -/
theorem finish_of_transmitting (code : ResultCode) (value : Option Nat) (symbols : Option (List Byte))
    (h : s.ctrlState = .transmitting) :
    finish code value symbols s = { s with
      status := code
      resp := some { code := code, value := value, symbols := symbols }
      cmd := none
      phase := .idle
      ctrlState := .ready
      events := s.events ++ [.resp { code := code, value := value, symbols := symbols }] } := by
  simp [finish, emit, h]

theorem regSendLen_of_some {len : Nat} (h : s.sendLen = some len) : regSendLen s = len := by
  simp [regSendLen, seqReg, h]

theorem regWrOk_of_some {ok : Bool} (h : s.wrOk = some ok) : regWrOk s = ok := by
  simp [regWrOk, h]

/-- The value of a send's response is the size for DRIVE and the length for SEND (42_transmit.md R85). -/
theorem sendValue_of_cmd {len v : Nat} (hlen : s.sendLen = some len)
    (hcmd : s.cmd = some .drive ∧ v = s.bufSize ∨ (∃ l, s.cmd = some (.send l)) ∧ v = len) : sendValue s = v := by
  obtain ⟨hdrive, rfl⟩ | ⟨⟨l, hsend⟩, rfl⟩ := hcmd
  · simp [sendValue, hdrive]
  · simp [sendValue, hsend, regSendLen_of_some hlen]

/-- With the cells below the length defined S_BEGIN has its snapshot (42_transmit.md R85). -/
theorem exists_snapshot {len : Nat} (hlen : s.sendLen = some len) (hdef : DefinedBelow s len) :
    ∃ bytes, s.buf.readBytes 0 (regSendLen s) = some bytes := by
  rw [regSendLen_of_some hlen]
  exact Option.isSome_iff_exists.1 ((readBytes_isSome_iff len).2 hdef)

theorem phaseSBegin_of_begun {bytes : List Byte} (hread : s.buf.readBytes 0 (regSendLen s) = some bytes)
    (hans : beginAnswer s = true) :
    phaseSBegin s = writeIssued bytes (emit (.busBegin (busCfg s.cfg) true) (beginAsked s)) := by
  simp [phaseSBegin, hread, hans]

theorem phaseSBegin_of_not_begun {bytes : List Byte} (hread : s.buf.readBytes 0 (regSendLen s) = some bytes)
    (hans : beginAnswer s = false) :
    phaseSBegin s = beginFailed (emit (.busBegin (busCfg s.cfg) false) (beginAsked s)) := by
  simp [phaseSBegin, hread, hans]

/-- Settles O38: the snapshot exists, `Memory.readBytes_spec` says what it holds, and the Bus has opened. -/
theorem beginPhaseIssuesTheSnapshot : Obligations.BeginPhaseIssuesTheSnapshot := by
  intro s len hp hlen hdef hans
  obtain ⟨bytes, hread⟩ := exists_snapshot hlen hdef
  obtain ⟨hlength, hcells⟩ := Memory.readBytes_spec _ _ _ _ hread
  rw [regSendLen_of_some hlen] at hlength hcells
  refine ⟨bytes, hlength, fun a ha => ?_, ?_⟩
  · rw [← hcells a ha, Nat.zero_add]
  · rw [microStep_of_sBegin hp, phaseSBegin_of_begun hread hans]
    rfl

/-- Settles O39: the snapshot exists, but the Bus has not opened, so `beginFailed` ends the command. -/
theorem beginPhaseFailureEndsTheCommand : Obligations.BeginPhaseFailureEndsTheCommand := by
  intro s len v hp htx hlen hdef hans hcmd
  obtain ⟨bytes, hread⟩ := exists_snapshot hlen hdef
  have hvalue : sendValue (emit (.busBegin (busCfg s.cfg) false) (beginAsked s)) = v := sendValue_of_cmd hlen hcmd
  rw [microStep_of_sBegin hp, phaseSBegin_of_not_begun hread hans, beginFailed, hvalue, finish_of_transmitting]
  · simp [emit, withEnv, busCfg]
  · exact htx

/-- Where the Bus does not complete the pending write, phase S_WRITE holds (42_transmit.md R86). -/
theorem phaseSWrite_of_held {bytes : List Byte} (hreq : s.env.busReq = some bytes) (hans : writeAnswer s = none) :
    phaseSWrite s = writeAsked s := by
  simp [phaseSWrite, hreq, hans]

/-- Settles O40: the emitted length is the smaller of the Bus's number and the snapshot's length. -/
theorem writePhaseWaitsForTheBus : Obligations.WritePhaseWaitsForTheBus := by
  intro s bytes hp hreq
  rw [microStep_of_sWrite hp]
  refine ⟨fun hans => ?_, fun e ok hans => ⟨min e bytes.length, Nat.min_le_right _ _, Nat.min_eq_left, ?_⟩⟩
  · rw [phaseSWrite_of_held hreq hans]
    rfl
  · rw [phaseSWrite_of_completed hreq hans]
    rfl

/-- Settles O41: S_END records the end and then ends the command with the write's result. -/
theorem endPhaseClosesTheTransaction : Obligations.EndPhaseClosesTheTransaction := by
  intro s len v ok hp htx hlen hok hcmd
  rw [microStep_of_sEnd hp, phaseSEnd, regWrOk_of_some hok, sendValue_of_cmd hlen hcmd,
    finish_of_transmitting (s := emit .busEnd s) _ _ _ htx]
  simp [emit]

/-! ### What a send leaves unchanged -/

/-- `t` has the handle, the buffer and the count of `s`, and READY where no command is in progress any more
(42_transmit.md R91). -/
structure KeepsForRetry (s t : State) : Prop where
  busHeld    : t.busHeld = s.busHeld := by simp
  bufSize    : t.bufSize = s.bufSize := by simp
  buf        : t.buf = s.buf := by simp
  allocCount : t.allocCount = s.allocCount := by simp
  ready      : t.phase = .idle → t.ctrlState = .ready

theorem phaseSBegin_keepsForRetry (hp : s.phase = .sBegin) (htx : s.ctrlState = .transmitting) :
    KeepsForRetry s (phaseSBegin s) := by
  obtain ⟨_, h⟩ | ⟨bytes, _, ⟨_, h⟩ | ⟨_, h⟩⟩ := phaseSBegin_cases s <;> rw [h]
  · exact { ready := by simp [hp] }
  · exact { ready := by simp }
  · exact { ready := by simp [htx] }

theorem phaseSWrite_keepsForRetry (hp : s.phase = .sWrite) : KeepsForRetry s (phaseSWrite s) := by
  obtain ⟨_, h⟩ | ⟨bytes, _, ⟨_, h⟩ | ⟨e, ok, _, h⟩⟩ := phaseSWrite_cases s <;> rw [h]
  · exact { ready := by simp [hp] }
  · exact { ready := by simp [hp] }
  · exact { ready := by simp }

theorem phaseSEnd_keepsForRetry (htx : s.ctrlState = .transmitting) : KeepsForRetry s (phaseSEnd s) where
  busHeld := rfl
  bufSize := rfl
  buf := rfl
  allocCount := rfl
  ready _ := if_pos htx

/-- Settles O42: each of the three phases keeps what another send needs. -/
theorem sendKeepsHandleAndBuffer : Obligations.SendKeepsHandleAndBuffer := by
  intro s t hp htx h
  have hkept : KeepsForRetry s t := by
    obtain hp | hp | hp := hp
    · rw [microStep_of_sBegin hp] at h
      exact Host.Outcome.next.inj h ▸ phaseSBegin_keepsForRetry hp htx
    · rw [microStep_of_sWrite hp] at h
      exact Host.Outcome.next.inj h ▸ phaseSWrite_keepsForRetry hp
    · rw [microStep_of_sEnd hp] at h
      exact Host.Outcome.next.inj h ▸ phaseSEnd_keepsForRetry htx
  exact ⟨hkept.busHeld, hkept.bufSize, hkept.buf, hkept.allocCount, hkept.ready⟩

/-! ### The bits on the line -/

/-- The bits of a byte as one expression over the bit positions 7 down to 0 (20_memory.md R45). -/
theorem byteLine_eq_map (b : Byte) : byteLine b = (List.range 8).reverse.map fun k => b.getLsbD k := rfl

theorem byteLine_length (b : Byte) : (byteLine b).length = 8 := rfl

theorem byteLine_getElem? (b : Byte) {j : Nat} (hj : j < 8) : (byteLine b)[j]? = some (b.getLsbD (7 - j)) := by
  have hpos : (List.range 8).reverse[j]? = some (7 - j) := by simp [hj]
  rw [byteLine_eq_map, List.getElem?_map, hpos, Option.map_some]

theorem flatMap_byteLine_length (bytes : List Byte) : (bytes.flatMap byteLine).length = 8 * bytes.length := by
  simp [List.length_flatMap, byteLine_length, Nat.mul_comm]

/-- Bit `8a + j` of the bytes on the line is bit `7 - j` of byte `a`. -/
theorem flatMap_byteLine_getElem? (bytes : List Byte) (a : Nat) {j : Nat} (hj : j < 8) :
    (bytes.flatMap byteLine)[8 * a + j]? = bytes[a]?.map fun b => b.getLsbD (7 - j) := by
  induction bytes generalizing a with
  | nil => simp
  | cons b bytes ih =>
    rw [List.flatMap_cons]
    cases a with
    | zero =>
      rw [Nat.mul_zero, Nat.zero_add, List.getElem?_append_left (by rwa [byteLine_length]), byteLine_getElem? b hj,
        List.getElem?_cons_zero, Option.map_some]
    | succ a =>
      have hpos : 8 * (a + 1) + j - (byteLine b).length = 8 * a + j := by rw [byteLine_length]; omega
      rw [List.getElem?_append_right (by rw [byteLine_length]; omega), hpos, ih a, List.getElem?_cons_succ]

/-- No event but a completed write puts a bit on the line (42_transmit.md R89). -/
theorem eventLine_of_ne_busWrite {event : Event} (h : ∀ bytes e ok, event ≠ .busWrite bytes e ok) :
    eventLine event = [] := by
  cases event with
  | busWrite bytes e ok => exact absurd rfl (h bytes e ok)
  | _ => rfl

/-- Settles O43: the line of a write is that of its first `e` bytes, and a new event puts its own bits at the end. -/
theorem lineCarriesTheBytesMsbFirst : Obligations.LineCarriesTheBytesMsbFirst := by
  refine ⟨fun bytes e he => ⟨?_, fun a j ha hj => ?_⟩, fun s t event hevents => ⟨?_, fun hne => ?_⟩⟩
  · rw [lineBits, flatMap_byteLine_length, List.length_take_of_le he]
  · rw [lineBits, flatMap_byteLine_getElem? _ a hj, List.getElem?_take_of_lt ha]
  · rintro bytes e ok rfl
    simp [line_of_append hevents, eventLine]
  · exact line_of_dark hevents (by simp [eventLine_of_ne_busWrite hne])

end Sys2Proof.Machine
end

section
/-! Proofs of the family of 43_controller.md: the lifecycle commands (R93, R96, R105) and their table (R106), the phases
of a DRIVE (R97 to R101), and who asks the PixelSource (R95). -/

namespace Sys2Proof.Machine

variable {s t : State}

/-! ### The lifecycle commands -/

/-- Settles O14: each command's first check of its own finds the lifecycle state and raises the fault. -/
theorem lifecycleFaults : Obligations.LifecycleFaults := by
  refine fun s hl => ⟨fun hready => ?_, fun huninit => ⟨?_, fun len => ?_⟩⟩
  · rw [exec_of_accepting .init s ⟨hl, .inr hready⟩]
    exact congrArg Host.Outcome.next (if_pos hready)
  · rw [exec_of_accepting .drive s ⟨hl, .inl huninit⟩]
    exact congrArg Host.Outcome.next (if_pos huninit)
  · rw [exec_of_accepting (.send len) s ⟨hl, .inl huninit⟩]
    exact congrArg Host.Outcome.next (if_pos huninit)

/-- In UNINIT the work of INIT is the Bus's answer to `open()` (43_controller.md R93). -/
theorem init_of_uninit (h : s.ctrlState = .uninit) :
    init s = opened (openAnswer s) (emit (.busOpen (openAnswer s)) (openAsked (accept .init s))) :=
  if_neg (by simp [h])

/-- Settles O25: INIT is `opened` with the Bus's answer, in a state that is not transmitting. -/
theorem initTakesTheHandle : Obligations.InitTakesTheHandle := by
  intro s hl huninit
  rw [exec_of_accepting .init s ⟨hl, .inl huninit⟩, work, init_of_uninit huninit]
  refine ⟨fun hok => ?_, fun hfail => ?_⟩
  · rw [hok]
    simp [opened, finish, emit, withEnv, accept]
  · rw [hfail]
    simp [opened, finish, emit, withEnv, accept, huninit]

/-- Settles O27: READY is not UNINIT, so DRIVE is accepted. -/
theorem driveIsAccepted : Obligations.DriveIsAccepted := by
  intro s hl hready
  rw [exec_of_accepting .drive s ⟨hl, .inr hready⟩]
  exact congrArg Host.Outcome.next (if_neg (by simp [hready]))

/-- Settles O30: TEARDOWN releases the buffer and ends outside a transmission. -/
theorem teardownReleasesEverything : Obligations.TeardownReleasesEverything := by
  intro s hs
  rw [exec_of_accepting .teardown s hs]
  simp only [work, teardown]
  rw [finish_of_not_transmitting _ _ _ _ (by simp)]
  by_cases hsize : s.bufSize = 0 <;> simp [hsize]

/-- In UNINIT and READY a command's own work leaves the entry of the table (43_controller.md R106). -/
theorem work_lifecycleEntry (i : Instr) (hs : Accepting s) : lifecycleEntry s.ctrlState i (work i s) := by
  obtain ⟨⟨_, hfault⟩, huninit | hready⟩ := hs
  · cases i with
    | init =>
      rw [work, init_of_uninit huninit]
      cases hok : openAnswer s <;> simp [lifecycleEntry, huninit, hfault]
    | maxrate => simp [lifecycleEntry, work, huninit, hfault]
    | encode b => simp [lifecycleEntry, work, huninit, hfault]
    | ensure req => simp [lifecycleEntry, work, ensure, huninit, hfault]
    | drive => simp [lifecycleEntry, work, drive, huninit]
    | send len => simp [lifecycleEntry, work, send, huninit]
    | teardown => simp [lifecycleEntry, work, teardown, huninit, hfault]
  · cases i with
    | init => simp [lifecycleEntry, work, init, hready]
    | maxrate => simp [lifecycleEntry, work, hready, hfault]
    | encode b => simp [lifecycleEntry, work, hready, hfault]
    | ensure req => simp [lifecycleEntry, work, ensure, hready, hfault]
    | drive => simp [lifecycleEntry, work, drive, hready, hfault]
    | send len =>
      rw [work, send, if_neg (by simp [hready])]
      split_ifs
      · simp [lifecycleEntry, hready]
      · simp [lifecycleEntry, hready]
      · simp [lifecycleEntry, hready, hfault]
    | teardown => simp [lifecycleEntry, work, teardown, hready, hfault]

/-- Settles O15: TORN_DOWN and TRANSMITTING answer the common faults, UNINIT and READY the command's own work. -/
theorem lifecycleTable : Obligations.LifecycleTable := by
  intro i s hl
  cases hc : s.ctrlState with
  | tornDown =>
    rw [exec_eq_checked, checked_of_tornDown s _ hl hc]
    exact ⟨_, rfl, rfl⟩
  | transmitting =>
    rw [exec_eq_checked, checked_of_transmitting s _ hl hc]
    exact ⟨_, rfl, rfl⟩
  | uninit =>
    have hs : Accepting s := ⟨hl, .inl hc⟩
    exact ⟨work i s, exec_of_accepting i s hs, hc ▸ work_lifecycleEntry i hs⟩
  | ready =>
    have hs : Accepting s := ⟨hl, .inr hc⟩
    exact ⟨work i s, exec_of_accepting i s hs, hc ▸ work_lifecycleEntry i hs⟩

/-! ### The phases of a DRIVE -/

theorem regN_of_some {n : Nat} (h : s.n = some n) : regN s = n := by simp [regN, seqReg, h]

theorem regReq_of_some {req : Nat} (h : s.req = some req) : regReq s = req := by simp [regReq, seqReg, h]

theorem regI_of_some {i : Nat} (h : s.i = some i) : regI s = i := by simp [regI, seqReg, h]

theorem microStep_of_dSize (hp : s.phase = .dSize) : microStep s = .next (phaseDSize s) := by
  simp [microStep, hp]

theorem microStep_of_dPixel (hp : s.phase = .dPixel) : microStep s = phaseDPixel s := by
  simp [microStep, hp]

theorem microStep_of_dCheck (hp : s.phase = .dCheck) : microStep s = .next (phaseDCheck s) := by
  simp [microStep, hp]

/-- Settles O31: D_SIZE writes the size of the frame in the model's own constant, which is 24. -/
theorem sizePhaseComputesTheFrame : Obligations.SizePhaseComputesTheFrame :=
  fun _ hp => microStep_of_dSize hp

/-- D_ALLOC goes on with an allocation that was granted (43_controller.md R98). -/
theorem microStep_of_granted {n req : Nat} (hp : s.phase = .dAlloc) (hn : s.n = some n) (hreq : s.req = some req)
    (h : ensureCapacity req s = (.ok, t)) :
    microStep s = .next { t with i := some 0, phase := if n = 0 then .dCheck else .dPixel } := by
  have hregN : regN t = n := regN_of_some (by rw [← hn, ← ensureCapacity_n req s, h])
  simp only [microStep, hp, phaseDAlloc, regReq_of_some hreq, h, allocated, hregN]

/-- D_ALLOC ends the command with an allocation that failed, and the value is the size kept (43_controller.md R98). -/
theorem microStep_of_allocationFailure {req : Nat} (hp : s.phase = .dAlloc) (htx : s.ctrlState = .transmitting)
    (hreq : s.req = some req) (h : ensureCapacity req s = (.allocationFailure, t)) :
    microStep s = .next { t with
      status := .allocationFailure
      resp := some { code := .allocationFailure, value := some t.bufSize, symbols := none }
      cmd := none
      phase := .idle
      ctrlState := .ready
      events := t.events ++ [.resp { code := .allocationFailure, value := some t.bufSize, symbols := none }] } := by
  have htx' : t.ctrlState = .transmitting := by rw [← htx, ← ensureCapacity_ctrlState req s, h]
  simp only [microStep, hp, phaseDAlloc, regReq_of_some hreq, h, finish_of_transmitting _ _ _ htx']

/-- Settles O32: the present size is the first case of `ensureCapacity`. -/
theorem allocPhaseKeepsAnEqualFrame : Obligations.AllocPhaseKeepsAnEqualFrame :=
  fun s _ hp hn hreq => microStep_of_granted hp hn hreq (ensureCapacity_bufSize_self s)

/-- Settles O33: size 0 and a granted request reallocate, and `reallocate_read` says what the cells hold. -/
theorem allocPhaseReplacesTheFrame : Obligations.AllocPhaseReplacesTheFrame := by
  intro s n req hp hn hreq hne hgranted
  refine ⟨(reallocate req s).buf, Memory.zeros_wf _ _, reallocate_read req s, ?_⟩
  by_cases hzero : req = 0
  · subst hzero
    rw [microStep_of_granted hp hn hreq (ensureCapacity_zero hne.symm), if_pos rfl]
    rfl
  · obtain ⟨hcap, hans⟩ := hgranted.resolve_left hzero
    have hok : ensureCapacity req s = (.ok, reallocate req (allocAsked s)) := by
      rw [ensureCapacity_within_capacity hne (Nat.pos_of_ne_zero hzero) hcap, if_pos hans]
    rw [microStep_of_granted hp hn hreq hok, if_neg hzero]
    rfl

/-- Settles O34: beyond the capacity the agents are as before, and within it the Allocator has refused. -/
theorem allocPhaseFailureEndsTheCycle : Obligations.AllocPhaseFailureEndsTheCycle := by
  intro s req hp htx hreq hne hpos hfail
  by_cases hcap : s.cfg.bufCapacity < req
  · rw [microStep_of_allocationFailure hp htx hreq (ensureCapacity_beyond_capacity hne hpos hcap), if_pos hcap]
    simp [emit]
  · have hrefused : allocAnswer s = false := hfail.resolve_left hcap
    have hfailed : ensureCapacity req s = (.allocationFailure, emit (.allocFail s.bufSize req) (allocAsked s)) := by
      rw [ensureCapacity_within_capacity hne hpos (not_lt.1 hcap), hrefused, if_neg Bool.false_ne_true]
    rw [microStep_of_allocationFailure hp htx hreq hfailed, if_neg hcap]
    simp [emit, withEnv]

/-- The 24 slots of pixel `p` hold the symbols of its three bytes, in channel order and MSB first
(20_memory.md R43, 40_encoder.md R72). -/
def HoldsPixel (c : Config) (m : Memory) (p : Nat) (b0 b1 b2 : Byte) : Prop :=
  ∀ k, k < 8 →
    m.read (slot p 0 k) = some (sym c (b0.getLsbD (7 - k))) ∧
    m.read (slot p 1 k) = some (sym c (b1.getLsbD (7 - k))) ∧
    m.read (slot p 2 k) = some (sym c (b2.getLsbD (7 - k)))

/-- A pixel write leaves the pixel in its slots: each channel's symbols are eight of the 24. -/
theorem putPixel_holdsPixel (p : Nat) (b0 b1 b2 : Byte) (s : State) :
    HoldsPixel s.cfg (putPixel p b0 b1 b2 s).buf p b0 b1 b2 := by
  intro k hk
  obtain ⟨hlen0, hsym0⟩ := symbolsAreMsbFirst s.cfg b0
  obtain ⟨hlen1, hsym1⟩ := symbolsAreMsbFirst s.cfg b1
  obtain ⟨-, hsym2⟩ := symbolsAreMsbFirst s.cfg b2
  refine ⟨?_, ?_, ?_⟩ <;> rw [putPixel_read, if_pos (by unfold slot; omega), pixelSymbols]
  · rw [List.append_assoc, show slot p 0 k - 24 * p = k by unfold slot; omega,
      List.getElem?_append_left (by omega)]
    exact hsym0 k hk
  · rw [List.append_assoc, show slot p 1 k - 24 * p = 8 + k by unfold slot; omega,
      List.getElem?_append_right (by omega), hlen0, Nat.add_sub_cancel_left, List.getElem?_append_left (by omega)]
    exact hsym1 k hk
  · rw [show slot p 2 k - 24 * p = 16 + k by unfold slot; omega, List.getElem?_append_right (by simp [hlen0, hlen1]),
      List.length_append, hlen0, hlen1, Nat.add_sub_cancel_left]
    exact hsym2 k hk

/-- D_PIXEL encodes a pixel that the source has and that fits (43_controller.md R99). -/
theorem phaseDPixel_of_pixel (hans : hasNextAnswer s = true) (hfits : pixelFits (regI s) s = true) :
    ∃ b0 b1 b2, b0 = scaledAnswer 0 (askHasNext s) ∧ b1 = scaledAnswer 1 (askHasNext s) ∧
      b2 = scaledAnswer 2 (askHasNext s) ∧
      phaseDPixel s = .next (pixelDone (putPixel (regI s) b0 b1 b2 (takePixel b0 b1 b2 (askHasNext s)))) := by
  obtain ⟨hno, _⟩ | ⟨_, hno, _⟩ | ⟨_, _, h⟩ := phaseDPixel_cases s
  · simp [hans] at hno
  · simp [hfits] at hno
  · exact h

/-- Settles O35: the bytes are the source's answers, and `putPixel_holdsPixel` and `putPixel_read` say what the cells
hold. -/
theorem pixelPhaseEncodesOnePixel : Obligations.PixelPhaseEncodesOnePixel := by
  intro s n i hp hn hi hans hle
  have hregI : regI s = i := regI_of_some hi
  obtain ⟨b0, b1, b2, h0, h1, h2, hpixel⟩ := phaseDPixel_of_pixel hans (by simpa [pixelFits, hregI] using hle)
  rw [hregI] at hpixel
  refine ⟨b0, b1, b2, (putPixel i b0 b1 b2 s).buf, fun x y z rest hscaled => ?_, fun k hk => ?_, fun a ha => ?_, ?_⟩
  · simp [h0, h1, h2, scaledAnswer, hscaled, nextAnswer]
  · exact putPixel_holdsPixel i b0 b1 b2 s k hk
  · rw [putPixel_read, if_neg (by omega)]
  · rw [microStep_of_dPixel hp, hpixel]
    simp [pixelDone, putPixel, takePixel, askHasNext, emit, withEnv, regI, regN, seqReg, hi, hn, hans]

/-- Settles O36: both phases end in `mismatch` after the same request, and `finish` leaves READY. -/
theorem streamMismatchEndsTheCycle : Obligations.StreamMismatchEndsTheCycle := by
  intro s h htx hans hphase
  have hmismatch : microStep s = .next (mismatch (askHasNext s)) := by
    obtain ⟨hp, rfl⟩ | ⟨hp, rfl⟩ := hphase
    · rw [microStep_of_dPixel hp, phaseDPixel, hans, if_neg Bool.false_ne_true]
    · rw [microStep_of_dCheck hp, phaseDCheck, hans, if_pos rfl]
  rw [hmismatch, mismatch, finish_of_transmitting _ _ _ (by simpa using htx)]
  simp [askHasNext, emit, withEnv, hans]

/-- Settles O37: D_CHECK of an exhausted source is `frameComplete`. -/
theorem checkPhaseStartsTheSend : Obligations.CheckPhaseStartsTheSend := by
  intro s hp hans
  rw [microStep_of_dCheck hp, phaseDCheck, hans, if_neg Bool.false_ne_true]
  simp [frameComplete, askHasNext, emit, withEnv, hans]

/-! ### Who asks the PixelSource -/

/-- `t` has the PixelSource's answers of `s` and no new event of the PixelSource. -/
structure SourceUntouched (s t : State) : Prop where
  events : t.events.countP Event.isSource = s.events.countP Event.isSource := by simp [Event.isSource]
  sizes  : t.env.sizes = s.env.sizes := by simp
  nexts  : t.env.nexts = s.env.nexts := by simp
  scaled : t.env.scaled = s.env.scaled := by simp

theorem SourceUntouched.trans {u : State} (h : SourceUntouched s t) (h' : SourceUntouched t u) : SourceUntouched s u :=
  ⟨h'.events.trans h.events, h'.sizes.trans h.sizes, h'.nexts.trans h.nexts, h'.scaled.trans h.scaled⟩

/-- A state that differs in neither the history nor the agents. -/
theorem sourceUntouched_of_eq (hevents : t.events = s.events := by rfl) (henv : t.env = s.env := by rfl) :
    SourceUntouched s t :=
  ⟨by rw [hevents], by rw [henv], by rw [henv], by rw [henv]⟩

theorem raise_sourceUntouched (c : FaultCode) (s : State) : SourceUntouched s (raise c s) := {}

theorem takeWord_sourceUntouched (w : Word) (s : State) : SourceUntouched s (takeWord w s) := {}

theorem finish_sourceUntouched (code : ResultCode) (value : Option Nat) (symbols : Option (List Byte)) (s : State) :
    SourceUntouched s (finish code value symbols s) where

theorem ensureCapacity_sourceUntouched (req : Nat) (s : State) : SourceUntouched s (ensureCapacity req s).2 := by
  obtain ⟨_, h⟩ | ⟨_, _, h⟩ | ⟨_, _, _, h⟩ | ⟨_, _, _, _, h⟩ | ⟨_, _, _, _, h⟩ :=
    ensureCapacity_cases req s <;> rw [h] <;> exact {}

theorem teardown_sourceUntouched (s : State) : SourceUntouched s (teardown s) where
  events := by by_cases h : s.bufSize = 0 <;> simp [teardown, h, Event.isSource]
  sizes := by simp [teardown]
  nexts := by simp [teardown]
  scaled := by simp [teardown]

/-- No command's own work asks the PixelSource. -/
theorem work_sourceUntouched (i : Instr) (s : State) : SourceUntouched s (work i s) := by
  have haccept (j : Instr) : SourceUntouched s (accept j s) := sourceUntouched_of_eq
  cases i with
  | init =>
    simp only [work, init]
    split_ifs
    · exact raise_sourceUntouched _ s
    · exact {}
  | maxrate => exact (haccept _).trans (finish_sourceUntouched _ _ _ _)
  | encode b => exact (haccept _).trans (finish_sourceUntouched _ _ _ _)
  | ensure req =>
    exact ((haccept _).trans (ensureCapacity_sourceUntouched req _)).trans (finish_sourceUntouched _ _ _ _)
  | drive =>
    simp only [work, drive]
    split_ifs
    · exact raise_sourceUntouched _ s
    · exact sourceUntouched_of_eq
  | send len =>
    simp only [work, send]
    split_ifs
    · exact raise_sourceUntouched _ s
    · exact raise_sourceUntouched _ s
    · exact raise_sourceUntouched _ s
    · exact sourceUntouched_of_eq
  | teardown => exact (haccept _).trans (teardown_sourceUntouched _)

/-- What is asked of the PixelSource from `s` to `t` is asked in the phases that ask for it (43_controller.md R95). -/
structure AsksInItsPhases (s t : State) : Prop where
  events : t.events.countP Event.isSource ≠ s.events.countP Event.isSource →
    s.phase = .dSize ∨ s.phase = .dPixel ∨ s.phase = .dCheck
  sizes  : t.env.sizes ≠ s.env.sizes → s.phase = .dSize
  nexts  : t.env.nexts ≠ s.env.nexts → s.phase = .dPixel ∨ s.phase = .dCheck
  scaled : t.env.scaled ≠ s.env.scaled → s.phase = .dPixel

theorem SourceUntouched.asksInItsPhases (h : SourceUntouched s t) : AsksInItsPhases s t :=
  ⟨absurd h.events, absurd h.sizes, absurd h.nexts, absurd h.scaled⟩

/-- The leaves of D_SIZE, D_PIXEL and D_CHECK ask, each for its own answers; no other leaf does. -/
theorem microStep_asksInItsPhases (h : microStep s = .next t) : AsksInItsPhases s t := by
  refine microStep_cases AsksInItsPhases ?idle ?size ?alloc ?allocFailed ?mismatched
    ?pixel ?complete ?undef ?issued ?notBegun ?noWrite ?hold ?written ?closed s t h
  case size => exact fun s hp => ⟨fun _ => .inl hp, fun _ => hp, absurd rfl, absurd rfl⟩
  case mismatched => exact fun s hp => ⟨fun _ => .inr hp, absurd (by simp), fun _ => hp, absurd (by simp)⟩
  case pixel =>
    exact fun s b0 b1 b2 hp _ => ⟨fun _ => .inr (.inl hp), absurd (by simp), fun _ => .inl hp, fun _ => hp⟩
  case complete =>
    exact fun s hp => ⟨fun _ => .inr (.inr hp), absurd (by simp), fun _ => .inr hp, absurd (by simp)⟩
  case alloc =>
    exact fun s _ => ((ensureCapacity_sourceUntouched (regReq s) s).trans sourceUntouched_of_eq).asksInItsPhases
  case allocFailed =>
    exact fun s _ =>
      ((ensureCapacity_sourceUntouched (regReq s) s).trans (finish_sourceUntouched _ _ _ _)).asksInItsPhases
  case idle => exact fun s _ => SourceUntouched.asksInItsPhases sourceUntouched_of_eq
  case undef => exact fun s _ _ => (raise_sourceUntouched _ s).asksInItsPhases
  case issued => exact fun s bytes _ _ => SourceUntouched.asksInItsPhases {}
  case notBegun => exact fun s _ => SourceUntouched.asksInItsPhases {}
  case noWrite => exact fun s _ _ => SourceUntouched.asksInItsPhases sourceUntouched_of_eq
  case hold => exact fun s _ => SourceUntouched.asksInItsPhases {}
  case written => exact fun s _ _ _ _ _ => SourceUntouched.asksInItsPhases {}
  case closed =>
    intro s _
    have hend : SourceUntouched s (emit .busEnd s) := {}
    exact (hend.trans (finish_sourceUntouched _ _ _ _)).asksInItsPhases

/-- A step that takes a word of the Host does not ask the PixelSource, whatever becomes of the word. -/
theorem step_sourceUntouched_or_silent (h : step s = .next t) :
    SourceUntouched s t ∨ hostMove s = none ∧ AsksInItsPhases (hostMoved s) t := by
  obtain ⟨_, ⟨w, i, _, _, h⟩ | ⟨w, _, _, _, rfl⟩ | ⟨hm, h⟩⟩ := step_cases s t h
  · have htaken := takeWord_sourceUntouched w s
    obtain ⟨_, ⟨_, rfl⟩ | ⟨_, rfl⟩ | ⟨_, rfl⟩⟩ := exec_cases i _ t h
    · exact .inl (htaken.trans (raise_sourceUntouched _ _))
    · exact .inl (htaken.trans (raise_sourceUntouched _ _))
    · exact .inl (htaken.trans (work_sourceUntouched i _))
  · exact .inl ((takeWord_sourceUntouched w s).trans (raise_sourceUntouched _ _))
  · exact .inr ⟨hm, microStep_asksInItsPhases h⟩

/-- Settles O56: a step with a word asks nothing, and a silent one only what its phase asks. -/
theorem sourceIsAskedOnlyInADriveCycle : Obligations.SourceIsAskedOnlyInADriveCycle := by
  intro s t h
  obtain ⟨hevents, hsizes, hnexts, hscaled⟩ | ⟨hm, hasks⟩ := step_sourceUntouched_or_silent h
  · exact ⟨absurd hevents, absurd hsizes, absurd hnexts, absurd hscaled⟩
  · exact ⟨fun hne => ⟨hm, hasks.events hne⟩, fun hne => ⟨hm, hasks.sizes hne⟩,
      fun hne => ⟨hm, hasks.nexts hne⟩, fun hne => ⟨hm, hasks.scaled hne⟩⟩

end Sys2Proof.Machine
end

section
/-! Proof of the family of 43_controller.md, a whole DRIVE (R102 to R104): the run is its acceptance with D_SIZE and
D_ALLOC, one step for each pixel, and D_CHECK with the phases of the send. -/

namespace Sys2Proof.Machine

variable {s t u : State}

/-! ### Runs of several steps -/

theorem steps_succ (h : step s = .next t) (k : Nat) : steps (k + 1) s = steps k t := by
  simp [steps, h]

/-- A run of `j` steps that answers a next state goes on from there. -/
theorem steps_add {j : Nat} (h : steps j s = .next t) (k : Nat) : steps (j + k) s = steps k t := by
  induction j generalizing s with
  | zero =>
    cases h
    rw [Nat.zero_add]
  | succ j ih =>
    cases hstep : step s with
    | next u =>
      rw [steps_succ hstep] at h
      rw [Nat.succ_add, steps_succ hstep, ih h]
    | fault r => simp [steps, hstep] at h
    | refused r => simp [steps, hstep] at h

/-- What every step keeps, every run keeps. -/
theorem steps_preserves {P : State → Prop} (hstep : ∀ s t, P s → step s = .next t → P t) {k : Nat} (hs : P s)
    (h : steps k s = .next t) : P t := by
  induction k generalizing s with
  | zero =>
    cases h
    exact hs
  | succ k ih =>
    cases hnext : step s with
    | next u =>
      rw [steps_succ hnext] at h
      exact ih (hstep s u hs hnext) h
    | fault r => simp [steps, hnext] at h
    | refused r => simp [steps, hnext] at h

theorem steps_extends {k : Nat} (h : steps k s = .next t) : Extends s t :=
  steps_preserves (P := Extends s) (fun u v hu hv => hu.trans (step_extends u v hv)) (.refl s) h

theorem step_tail (hs : Tail s) (h : step s = .next t) : Tail t :=
  (step_frameMove h).tail (step_extends s t h).cfg hs

theorem steps_tail {k : Nat} (hs : Tail s) (h : steps k s = .next t) : Tail t :=
  steps_preserves (P := Tail) (fun _ _ => step_tail) hs h

theorem steps_sequenced {k : Nat} (htail : Tail s) (hs : Sequenced s) (h : steps k s = .next t) : Sequenced t :=
  (steps_preserves (P := fun u => Tail u ∧ Sequenced u)
    (fun u v hu hv => ⟨step_tail hu.left hv, stepKeepsTheSequence u v hu hv⟩) ⟨htail, hs⟩ h).right

theorem Live.of_eq (h : Live s) (hrefused : t.refused = s.refused) (hfault : t.fault = s.fault) : Live t :=
  ⟨hrefused.trans h.1, hfault.trans h.2⟩

/-! ### What the agents do -/

/-- The Host is silent in each of the next `k` steps. -/
def SilentFor (k : Nat) (s : State) : Prop := ∃ rest, s.env.host = List.replicate k none ++ rest

theorem SilentFor.moved {k : Nat} (h : SilentFor (k + 1) s) : SilentFor k (hostMoved s) := by
  obtain ⟨rest, hhost⟩ := h
  exact ⟨rest, by simp [hhost, List.replicate_succ]⟩

theorem SilentFor.of_host_eq {k : Nat} (h : SilentFor k s) (hhost : t.env.host = s.env.host) : SilentFor k t := by
  rwa [SilentFor, hhost]

/-- With the Host silent a step is the phase's micro-step. -/
theorem SilentFor.step {k : Nat} (h : SilentFor (k + 1) s) (hl : Live s) : step s = microStep (hostMoved s) := by
  obtain ⟨rest, hhost⟩ := h
  exact step_silent s hl ((hostMove_eq_none_iff s).2 (.inr ⟨_, by rw [hhost, List.replicate_succ]; rfl⟩))

/-- The PixelSource yields the pixels `todo` and no more, and the Bus opens the transaction and completes the write with
`(e, true)` in the first step it can. -/
structure Answers (todo : List (Byte × Byte × Byte)) (e : Nat) (s : State) : Prop where
  nexts  : ∃ rest, s.env.nexts = List.replicate todo.length true ++ false :: rest
  scaled : ∃ rest, s.env.scaled = scaledBytes todo ++ rest
  begins : ∃ rest, s.env.begins = true :: rest
  writes : ∃ rest, s.env.writes = some (e, true) :: rest

/-! ### A frame with some of its pixels encoded -/

/-- The slots hold the pixels of a list, from pixel 0 on. -/
def HoldsPixels (c : Config) (m : Memory) (pixels : List (Byte × Byte × Byte)) : Prop :=
  ∀ p b0 b1 b2, pixels[p]? = some (b0, b1, b2) → HoldsPixel c m p b0 b1 b2

/-- A pixel behind the others leaves them as they are. -/
theorem HoldsPixels.concat {c : Config} {m m' : Memory} {pixels : List (Byte × Byte × Byte)} {b0 b1 b2 : Byte}
    (h : HoldsPixels c m pixels) (hbelow : ∀ a, a < 24 * pixels.length → m'.read a = m.read a)
    (hnew : HoldsPixel c m' pixels.length b0 b1 b2) : HoldsPixels c m' (pixels ++ [(b0, b1, b2)]) := by
  intro p c0 c1 c2 hget
  obtain hp | rfl | hp := Nat.lt_trichotomy p pixels.length
  · rw [List.getElem?_append_left hp] at hget
    intro k hk
    rw [hbelow _ (by unfold slot; omega), hbelow _ (by unfold slot; omega), hbelow _ (by unfold slot; omega)]
    exact h p c0 c1 c2 hget k hk
  · rw [List.getElem?_concat_length, Option.some_inj] at hget
    cases hget
    exact hnew
  · rw [List.getElem?_eq_none (by rw [List.length_append, List.length_singleton]; exact hp)] at hget
    cases hget

/-- The DRIVE accepted in `s` has reached `t`: of its pixels it has encoded `done`, and `todo` are to come. -/
structure Encoding (s : State) (done todo : List (Byte × Byte × Byte)) (t : State) : Prop where
  grown        : Extends s t
  live         : Live t
  transmitting : t.ctrlState = .transmitting
  tail         : Tail t
  sequenced    : Sequenced t
  n            : t.n = some (done.length + todo.length)
  i            : t.i = some done.length
  phase        : t.phase = if todo.length = 0 then .dCheck else .dPixel
  bufSize      : t.bufSize = 24 * (done.length + todo.length) + s.cfg.resetLen
  allocCount   : t.allocCount = s.allocCount + if s.bufSize = t.bufSize then 0 else 1
  cells        : HoldsPixels s.cfg t.buf done

/-- One step encodes the next pixel (43_controller.md R99). -/
theorem step_encodes {done todo : List (Byte × Byte × Byte)} {b0 b1 b2 : Byte} {e k : Nat}
    (h : Encoding s done ((b0, b1, b2) :: todo) t) (hsilent : SilentFor (k + 1) t)
    (hans : Answers ((b0, b1, b2) :: todo) e t) :
    ∃ u, step t = .next u ∧ Encoding s (done ++ [(b0, b1, b2)]) todo u ∧ SilentFor k u ∧ Answers todo e u := by
  obtain ⟨nexts, hnexts⟩ := hans.nexts
  obtain ⟨scaled, hscaled⟩ := hans.scaled
  have hlen : done.length + ((b0, b1, b2) :: todo).length = (done ++ [(b0, b1, b2)]).length + todo.length := by
    simp only [List.length_cons, List.length_append, List.length_nil]
    omega
  have hhas : hasNextAnswer (hostMoved t) = true := by simp [hasNextAnswer, hnexts, nextAnswer, List.replicate_succ]
  have hfits : 24 * (done.length + 1) ≤ (hostMoved t).bufSize - (hostMoved t).cfg.resetLen := by
    simp only [hostMoved_eq, withEnv_bufSize, withEnv_cfg, h.bufSize, h.grown.cfg, List.length_cons]
    omega
  obtain ⟨c0, c1, c2, m, hbytes, hslots, hothers, hmicro⟩ :=
    pixelPhaseEncodesOnePixel (hostMoved t) _ _ h.phase h.n h.i hhas hfits
  obtain ⟨rfl, rfl, rfl⟩ := hbytes b0 b1 b2 (scaledBytes todo ++ scaled) hscaled
  have hnew : HoldsPixel s.cfg m done.length c0 c1 c2 := by
    rw [← h.grown.cfg]
    exact fun k hk => hslots k hk
  have hstep := (hsilent.step h.live).trans hmicro
  refine ⟨_, hstep, ?_, hsilent.moved, ⟨nexts, ?_⟩, ⟨scaled, ?_⟩, hans.begins, hans.writes⟩
  · exact
      { grown := h.grown.trans (step_extends _ _ hstep)
        live := h.live
        transmitting := h.transmitting
        tail := step_tail h.tail hstep
        sequenced := stepKeepsTheSequence _ _ ⟨h.tail, h.sequenced⟩ hstep
        n := by rw [← hlen]; exact h.n
        i := by rw [List.length_append]; rfl
        phase := if_congr (by rw [List.length_cons]; omega) rfl rfl
        bufSize := by rw [← hlen]; exact h.bufSize
        allocCount := h.allocCount
        cells := h.cells.concat (fun a ha => hothers a (.inl ha)) hnew }
  · simp [hnexts, List.replicate_succ]
  · simp [hscaled, scaledBytes]

/-- A step for each pixel encodes them all. -/
theorem steps_encode {done todo : List (Byte × Byte × Byte)} {e k : Nat} (h : Encoding s done todo t)
    (hsilent : SilentFor (todo.length + k) t) (hans : Answers todo e t) :
    ∃ u, steps todo.length t = .next u ∧ Encoding s (done ++ todo) [] u ∧ SilentFor k u ∧ Answers [] e u := by
  induction todo generalizing done t with
  | nil => exact ⟨t, rfl, by rwa [List.append_nil], by simpa using hsilent, hans⟩
  | cons pixel todo ih =>
    rw [List.length_cons, Nat.succ_add] at hsilent
    obtain ⟨u, hstep, hu, husilent, huans⟩ := step_encodes h hsilent hans
    obtain ⟨v, hsteps, hv⟩ := ih hu husilent huans
    rw [List.append_assoc, List.singleton_append] at hv
    exact ⟨v, (steps_succ hstep _).trans hsteps, hv⟩

/-! ### The beginning of a DRIVE -/

theorem ensureCapacity_ok {req : Nat} (hcap : req ≤ s.cfg.bufCapacity)
    (hgranted : req = s.bufSize ∨ req = 0 ∨ allocAnswer s = true) : (ensureCapacity req s).1 = .ok := by
  obtain ⟨_, h⟩ | ⟨_, _, h⟩ | ⟨_, _, hbeyond, _⟩ | ⟨_, _, _, _, h⟩ | ⟨hne, hpos, _, hrefused, _⟩ :=
    ensureCapacity_cases req s
  · rw [h]
  · rw [h]
  · omega
  · rw [h]
  · simp [hne, hpos, hrefused] at hgranted

/-- Only a reallocation is counted (10_state.md R34). -/
theorem ensureCapacity_allocCount_of_ok {req : Nat} (hok : (ensureCapacity req s).1 = .ok) :
    (ensureCapacity req s).2.allocCount = s.allocCount + if s.bufSize = req then 0 else 1 := by
  obtain ⟨heq, h⟩ | ⟨hne, hzero, h⟩ | ⟨_, _, _, h⟩ | ⟨hne, _, _, _, h⟩ | ⟨_, _, _, _, h⟩ :=
    ensureCapacity_cases req s <;> rw [h] at hok ⊢
  · rw [if_pos heq.symm]
    rfl
  · rw [if_neg hne.symm]
    rfl
  · cases hok
  · rw [if_neg hne.symm]
    rfl
  · cases hok

/-- `ensureCapacity` takes an answer of the Allocator and no other agent's (41_framebuffer.md R78). -/
theorem ensureCapacity_env (req : Nat) (s : State) : ∃ allocs drawn,
    (ensureCapacity req s).2.env = { s.env with allocs := allocs, drawn := drawn } := by
  obtain ⟨_, h⟩ | ⟨_, _, h⟩ | ⟨_, _, _, h⟩ | ⟨_, _, _, _, h⟩ | ⟨_, _, _, _, h⟩ :=
    ensureCapacity_cases req s <;> rw [h] <;> exact ⟨_, _, rfl⟩

/-- The Host has given the word of DRIVE and goes on with `host`, and DRIVE is accepted (43_controller.md R96). -/
def driveAccepted (host : List (Option Word)) (s : State) : State :=
  { s with
    cmd := some .drive
    ctrlState := .transmitting
    phase := .dSize
    events := s.events ++ [.cmd 0x00000005]
    env := { s.env with host := host } }

theorem step_driveAccepted {host : List (Option Word)} (hl : Live s) (hready : s.ctrlState = .ready)
    (hhost : s.env.host = some 0x00000005 :: host) : step s = .next (driveAccepted host s) := by
  have hdecode : decode 0x00000005 = .command .drive := decode_of_toNat _ _ rfl
  rw [step_command s _ .drive hl (hostMove_of_host_eq_cons hhost) hdecode,
    driveIsAccepted (takeWord 0x00000005 s) hl hready]
  simp [driveAccepted, hhost]

/-- D_ALLOC has gone from `s` to `t`, which owns a buffer of `req` bytes and has none of `len` pixels encoded. -/
structure Allocated (len req : Nat) (s t : State) : Prop where
  live       : Live s → Live t
  ctrlState  : t.ctrlState = s.ctrlState
  n          : t.n = some len
  i          : t.i = some 0
  phase      : t.phase = if len = 0 then .dCheck else .dPixel
  bufSize    : t.bufSize = req
  allocCount : t.allocCount = s.allocCount + if s.bufSize = req then 0 else 1
  env        : ∃ allocs drawn, t.env = { s.env with allocs := allocs, drawn := drawn }

/-- D_ALLOC within the capacity goes on, unless it asks the Allocator and is refused (43_controller.md R98). -/
theorem microStep_allocated {n req : Nat} (hp : s.phase = .dAlloc) (hn : s.n = some n) (hreq : s.req = some req)
    (hcap : req ≤ s.cfg.bufCapacity) (hgranted : req = s.bufSize ∨ req = 0 ∨ allocAnswer s = true) :
    ∃ t, microStep s = .next t ∧ Allocated n req s t := by
  have hok := ensureCapacity_ok hcap hgranted
  refine ⟨_, microStep_of_granted hp hn hreq (Prod.ext hok rfl), ?_⟩
  exact
    { live := fun hl => by simpa using hl
      ctrlState := ensureCapacity_ctrlState req s
      n := (ensureCapacity_n req s).trans hn
      i := rfl
      phase := rfl
      bufSize := ensureCapacity_bufSize_of_ok hok
      allocCount := ensureCapacity_allocCount_of_ok hok
      env := ensureCapacity_env req s }

/-- A DRIVE stands before D_SIZE, the source will announce the length of `pixels`, and nothing is in the way of its
frame of `size` bytes: it is within the capacity, and the Allocator grants it unless none is asked for. -/
structure DriveBegins (pixels : List (Byte × Byte × Byte)) (size : Nat) (t : State) : Prop where
  live         : Live t
  transmitting : t.ctrlState = .transmitting
  phase        : t.phase = .dSize
  cmd          : t.cmd = some .drive
  tail         : Tail t
  size_eq      : size = 24 * pixels.length + t.cfg.resetLen
  capacity     : size ≤ t.cfg.bufCapacity
  granted      : size = t.bufSize ∨ size = 0 ∨ ∃ rest, t.env.allocs = true :: rest
  announced    : ∃ rest, t.env.sizes = pixels.length :: rest

/-- Two steps, D_SIZE and D_ALLOC, leave the buffer of the frame, no pixel encoded yet (43_controller.md R97, R98). -/
theorem steps_allocate {pixels : List (Byte × Byte × Byte)} {e k size : Nat} (h : DriveBegins pixels size t)
    (hsilent : SilentFor (k + 2) t) (hans : Answers pixels e t) :
    ∃ u, steps 2 t = .next u ∧ Encoding t [] pixels u ∧ SilentFor k u ∧ Answers pixels e u := by
  have hasked : sizeAnswer (hostMoved t) = pixels.length := by
    obtain ⟨sizes, hsizes⟩ := h.announced
    simp [sizeAnswer, hsizes, nextAnswer]
  have hsized : step t = .next (phaseDSize (hostMoved t)) := (hsilent.step h.live).trans (microStep_of_dSize h.phase)
  have hn : (phaseDSize (hostMoved t)).n = some pixels.length := congrArg some hasked
  have hreq : (phaseDSize (hostMoved t)).req = some size := by
    rw [h.size_eq, ← hasked]
    rfl
  have halloc : size = (phaseDSize (hostMoved t)).bufSize ∨ size = 0 ∨
      allocAnswer (hostMoved (phaseDSize (hostMoved t))) = true := by
    refine h.granted.imp (fun heq => by simpa [phaseDSize] using heq) (.imp_right ?_)
    rintro ⟨allocs, hallocs⟩
    simp [allocAnswer, phaseDSize, hallocs, nextAnswer]
  obtain ⟨u, hmicro, hu⟩ :=
    microStep_allocated (s := hostMoved (phaseDSize (hostMoved t))) rfl hn hreq h.capacity halloc
  have hl' : Live (phaseDSize (hostMoved t)) := h.live.of_eq (by simp [phaseDSize]) (by simp [phaseDSize])
  have hsilent' : SilentFor (k + 1) (phaseDSize (hostMoved t)) := hsilent.moved.of_host_eq (by simp [phaseDSize])
  have hstep : step (phaseDSize (hostMoved t)) = .next u := (hsilent'.step hl').trans hmicro
  obtain ⟨hcount, hbufSize⟩ : (hostMoved (phaseDSize (hostMoved t))).allocCount = t.allocCount ∧
      (hostMoved (phaseDSize (hostMoved t))).bufSize = t.bufSize := by simp [phaseDSize]
  have hsteps : steps 2 t = .next u := (steps_succ hsized 1).trans (steps_succ hstep 0)
  obtain ⟨allocs, drawn, henv⟩ := hu.env
  refine ⟨u, hsteps, ?_, ?_, ?_⟩
  · exact
      { grown := steps_extends hsteps
        live := hu.live (hl'.of_eq (by simp) (by simp))
        transmitting := by simpa [phaseDSize, h.transmitting] using hu.ctrlState
        tail := steps_tail h.tail hsteps
        sequenced := steps_sequenced h.tail (by simpa [Sequenced, h.phase] using h.cmd) hsteps
        n := by rw [hu.n, List.length_nil, Nat.zero_add]
        i := hu.i
        phase := hu.phase
        bufSize := by rw [hu.bufSize, h.size_eq, List.length_nil, Nat.zero_add]
        allocCount := by rw [hu.allocCount, hu.bufSize, hcount, hbufSize]
        cells := by simp [HoldsPixels] }
  · exact hsilent'.moved.of_host_eq (by rw [henv])
  · constructor <;> simp only [henv, phaseDSize, emit_env, sizeAsked_eq, hostMoved_eq, withEnv_env]
    · exact hans.nexts
    · exact hans.scaled
    · exact hans.begins
    · exact hans.writes

/-! ### The end of a DRIVE -/

/-- The command in progress in `t` has ended in `u` after `k` steps: READY, the buffer kept, and `new` at the end of the
history. -/
structure EndsIn (k : Nat) (new : List Event) (t u : State) : Prop where
  run        : steps k t = .next u
  ctrlState  : u.ctrlState = .ready
  phase      : u.phase = .idle
  bufSize    : u.bufSize = t.bufSize
  buf        : u.buf = t.buf
  allocCount : u.allocCount = t.allocCount
  events     : u.events = t.events ++ new

/-- A step before the others that only adds to the history. -/
theorem EndsIn.of_step {v : State} {k : Nat} {new late : List Event} (h : EndsIn k late v u)
    (hstep : step t = .next v) (hevents : v.events = t.events ++ new) (hsize : v.bufSize = t.bufSize := by simp)
    (hbuf : v.buf = t.buf := by simp) (hcount : v.allocCount = t.allocCount := by simp) :
    EndsIn (k + 1) (new ++ late) t u where
  run := (steps_succ hstep k).trans h.run
  ctrlState := h.ctrlState
  phase := h.phase
  bufSize := h.bufSize.trans hsize
  buf := h.buf.trans hbuf
  allocCount := h.allocCount.trans hcount
  events := by rw [h.events, hevents, List.append_assoc]

/-- A DRIVE is sending its whole buffer (42_transmit.md R92). -/
structure SendsFrame (t : State) : Prop where
  live         : Live t
  transmitting : t.ctrlState = .transmitting
  cmd          : t.cmd = some .drive
  sendLen      : t.sendLen = some t.bufSize

/-- The response of a DRIVE that has sent its buffer of `size` bytes. -/
def sentResponse (size : Nat) : Event := .resp { code := .ok, value := some size, symbols := none }

/-- S_END closes the transaction and ends the command (42_transmit.md R87). -/
theorem endsIn_of_sEnd (h : SendsFrame t) (hp : t.phase = .sEnd) (hok : t.wrOk = some true) (hsilent : SilentFor 1 t) :
    ∃ u, EndsIn 1 [.busEnd, sentResponse t.bufSize] t u := by
  have hstep := (hsilent.step h.live).trans (endPhaseClosesTheTransaction (hostMoved t) t.bufSize t.bufSize true hp
    h.transmitting h.sendLen hok (.inl ⟨h.cmd, rfl⟩))
  exact ⟨_, steps_succ hstep 0, rfl, rfl, rfl, rfl, rfl, rfl⟩

/-- S_WRITE before it, with the write completed in the first step (42_transmit.md R86, R88). -/
theorem endsIn_of_sWrite {bytes : List Byte} {e : Nat} (h : SendsFrame t) (hp : t.phase = .sWrite)
    (hreq : t.env.busReq = some bytes) (hlength : bytes.length = t.bufSize)
    (hcompletes : ∃ rest, t.env.writes = some (e, true) :: rest) (hsilent : SilentFor 2 t) :
    ∃ u, EndsIn 2 [.busWrite bytes (min e t.bufSize) true, .busEnd, sentResponse t.bufSize] t u := by
  obtain ⟨writes, hwrites⟩ := hcompletes
  have hans : writeAnswer (hostMoved t) = some (e, true) := by simp [writeAnswer, hwrites, nextAnswer]
  have hstep : step t = .next (writeCompleted bytes e true (writeAsked (hostMoved t))) := by
    rw [hsilent.step h.live, microStep_of_sWrite (s := hostMoved t) hp,
      phaseSWrite_of_completed (s := hostMoved t) hreq hans]
  have hnext : SendsFrame (writeCompleted bytes e true (writeAsked (hostMoved t))) :=
    ⟨h.live.of_eq (by simp) (by simp), by simp [h.transmitting], by simp [h.cmd], by simp [h.sendLen]⟩
  obtain ⟨u, hu⟩ := endsIn_of_sEnd hnext (by simp) (by simp) (hsilent.moved.of_host_eq (by simp))
  refine ⟨u, ?_⟩
  simpa using hu.of_step hstep (new := [.busWrite bytes (min e t.bufSize) true]) (by simp [hlength])

/-- S_BEGIN before it, with the snapshot of the whole buffer (42_transmit.md R85). -/
theorem endsIn_of_sBegin {e : Nat} (h : SendsFrame t) (hp : t.phase = .sBegin) (hdef : DefinedBelow t t.bufSize)
    (hopens : ∃ rest, t.env.begins = true :: rest) (hcompletes : ∃ rest, t.env.writes = some (e, true) :: rest)
    (hsilent : SilentFor 3 t) :
    ∃ u bytes, bytes.length = t.bufSize ∧ (∀ a, a < t.bufSize → bytes[a]? = t.buf.read a) ∧
      EndsIn 3 [.busBegin (busCfg t.cfg) true, .busWrite bytes (min e t.bufSize) true, .busEnd,
        sentResponse t.bufSize] t u := by
  obtain ⟨begins, hbegins⟩ := hopens
  have hans : beginAnswer (hostMoved t) = true := by simp [beginAnswer, hbegins, nextAnswer]
  obtain ⟨bytes, hread⟩ := exists_snapshot (s := hostMoved t) h.sendLen hdef
  have hstep :
      step t = .next (writeIssued bytes (emit (.busBegin (busCfg t.cfg) true) (beginAsked (hostMoved t)))) := by
    rw [hsilent.step h.live, microStep_of_sBegin (s := hostMoved t) hp, phaseSBegin_of_begun hread hans]
    simp
  obtain ⟨hlength, hcells⟩ := Memory.readBytes_spec _ _ _ _ hread
  rw [regSendLen_of_some (s := hostMoved t) h.sendLen] at hlength hcells
  have hnext : SendsFrame (writeIssued bytes (emit (.busBegin (busCfg t.cfg) true) (beginAsked (hostMoved t)))) :=
    ⟨h.live.of_eq (by simp) (by simp), by simp [h.transmitting], by simp [h.cmd], by simp [h.sendLen]⟩
  obtain ⟨u, hu⟩ := endsIn_of_sWrite (bytes := bytes) (e := e) hnext (by simp) (by simp) (by simp [hlength])
    (by simpa using hcompletes) (hsilent.moved.of_host_eq (by simp))
  refine ⟨u, bytes, hlength, fun a ha => by simpa using (hcells a ha).symm, ?_⟩
  simpa using hu.of_step hstep (new := [.busBegin (busCfg t.cfg) true]) (by simp)

/-- D_CHECK before it: the complete frame is sent (43_controller.md R100, R103). -/
theorem endsIn_of_encoded {pixels : List (Byte × Byte × Byte)} {e : Nat} (h : Encoding s pixels [] t)
    (hsilent : SilentFor 4 t) (hans : Answers [] e t) :
    ∃ u bytes, bytes.length = t.bufSize ∧ (∀ a, a < t.bufSize → bytes[a]? = t.buf.read a) ∧
      EndsIn 4 [.srcHasNext false, .busBegin (busCfg t.cfg) true, .busWrite bytes (min e t.bufSize) true, .busEnd,
        sentResponse t.bufSize] t u := by
  obtain ⟨hcmd, n, _, hsize, hdef⟩ : t.cmd = some .drive ∧ ∃ n, t.n = some n ∧
      t.bufSize = 24 * n + t.cfg.resetLen ∧ DefinedBelow t (24 * n) := by
    simpa [Sequenced, h.phase] using h.sequenced
  have hall : DefinedBelow t t.bufSize := definedBelow_bufSize h.tail hsize hdef
  obtain ⟨nexts, hnexts⟩ := hans.nexts
  have hexhausted : hasNextAnswer (hostMoved t) = false := by simp [hasNextAnswer, hnexts, nextAnswer]
  have hstep : step t = .next (frameComplete (askHasNext (hostMoved t))) := by
    rw [hsilent.step h.live, microStep_of_dCheck (s := hostMoved t) h.phase, phaseDCheck, hexhausted,
      if_neg Bool.false_ne_true]
  have hnext : SendsFrame (frameComplete (askHasNext (hostMoved t))) :=
    ⟨h.live.of_eq (by simp) (by simp), by simp [h.transmitting], by simp [hcmd], by simp⟩
  obtain ⟨u, bytes, hlength, hcells, hu⟩ := endsIn_of_sBegin hnext (by simp) (by simpa [DefinedBelow] using hall)
    (by simpa using hans.begins) (by simpa using hans.writes) (hsilent.moved.of_host_eq (by simp))
  refine ⟨u, bytes, by simpa using hlength, by simpa using hcells, ?_⟩
  simpa using hu.of_step hstep (new := [.srcHasNext false]) (by rw [← hexhausted]; simp)

/-! ### A whole DRIVE -/

/-- A DRIVE from D_SIZE to its end: the frame of `pixels` in the buffer, and exactly it on the Bus
(43_controller.md R102, R103, R104). -/
theorem steps_drive {pixels : List (Byte × Byte × Byte)} {e size : Nat} (h : DriveBegins pixels size t)
    (hsilent : SilentFor (pixels.length + 6) t) (hans : Answers pixels e t) :
    ∃ v u bytes, Encoding t pixels [] v ∧ v.bufSize = size ∧
      bytes.length = size ∧ (∀ a, a < size → bytes[a]? = v.buf.read a) ∧
      EndsIn 4 [.srcHasNext false, .busBegin (busCfg v.cfg) true, .busWrite bytes (min e size) true, .busEnd,
        sentResponse size] v u ∧ steps (pixels.length + 6) t = .next u := by
  obtain ⟨a, hallocate, ha, hasilent, haans⟩ := steps_allocate h hsilent hans
  obtain ⟨v, hencode, hv, hvsilent, hvans⟩ := steps_encode ha hasilent haans
  rw [List.nil_append] at hv
  have hvsize : v.bufSize = size := by rw [hv.bufSize, h.size_eq]; simp
  obtain ⟨u, bytes, hlength, hcells, hu⟩ := endsIn_of_encoded hv hvsilent hvans
  rw [hvsize] at hlength hcells hu
  refine ⟨v, u, bytes, hv, hvsize, hlength, hcells, hu, ?_⟩
  calc steps (pixels.length + 6) t = steps (2 + (pixels.length + 4)) t := by rw [Nat.add_comm 2]
    _ = steps (pixels.length + 4) a := steps_add hallocate _
    _ = steps 4 v := steps_add hencode 4
    _ = .next u := hu.run

/-- Settles O59: DRIVE is accepted, and `steps_drive` runs it. -/
theorem driveLeavesAndSendsTheFrame : Obligations.DriveLeavesAndSendsTheFrame := by
  intro s pixels hosts sizes nexts begins scaled writes e size hl hready htail hcap hhost hsizes hnexts hscaled hgranted
    hbegins hwrites
  have haccepted := step_driveAccepted hl hready hhost
  have hdrive : DriveBegins pixels size (driveAccepted (List.replicate (pixels.length + 6) none ++ hosts) s) :=
    ⟨hl, rfl, rfl, rfl, htail, rfl, hcap, hgranted, sizes, hsizes⟩
  obtain ⟨v, t, bytes, hv, hvsize, hlength, hread, ht, hsteps⟩ := steps_drive hdrive ⟨hosts, rfl⟩
    ⟨⟨nexts, hnexts⟩, ⟨scaled, hscaled⟩, ⟨begins, hbegins⟩, ⟨writes, hwrites⟩⟩
  obtain ⟨early, hearly⟩ := hv.grown.history
  refine ⟨t, bytes, .cmd 0x00000005 :: early ++ [.srcHasNext false, .busBegin (busCfg v.cfg) true],
    (steps_succ haccepted _).trans hsteps, ht.ctrlState, ht.phase, ht.bufSize.trans hvsize, ?_, ?_, ?_, hlength,
    ?_, ?_⟩
  · intro p b0 b1 b2 hget
    rw [ht.buf]
    exact hv.cells p b0 b1 b2 hget
  · intro a ha ha'
    rw [ht.buf]
    refine hv.tail a ?_ (by omega)
    rw [hv.grown.cfg, hvsize]
    exact (Nat.sub_eq_of_eq_add rfl).trans_le ha
  · rw [ht.allocCount, hv.allocCount, hvsize]
    rfl
  · rw [ht.buf]
    exact hread
  · rw [ht.events, ← hearly]
    simp [driveAccepted, sentResponse]

end Sys2Proof.Machine
end

section
/-! Proofs of the family of 60_exceptions.md: the acceptance of a word and its checks (R113), the refused
configuration (R111), the precise faults (R110), and that no phase faults (R85, R99, R110). -/

namespace Sys2Proof.Machine

variable {s t : State} {w : Word} {i : Instr} {c : FaultCode} {rest : List (Option Word)}

/-! ### A step that takes a word -/

theorem hostMove_eq_some_iff : hostMove s = some w ↔ ∃ rest, s.env.host = some w :: rest := by
  unfold hostMove nextAnswer
  rcases s.env.host with _ | ⟨_ | _, _⟩ <;> simp

theorem takeWord_eq (hhost : s.env.host = some w :: rest) :
    takeWord w s = { s with events := s.events ++ [.cmd w], env := { s.env with host := rest } } := by
  simp [takeWord, emit, withEnv, hhost]

/-- A fault raised by a word writes the fault, the two events and the Host's move (60_exceptions.md R110). -/
theorem raise_takeWord_eq (hhost : s.env.host = some w :: rest) :
    raise c (takeWord w s) = { s with
      fault := some c
      events := s.events ++ [.cmd w, .fault c]
      env := { s.env with host := rest } } := by
  simp [takeWord_eq hhost, raise, emit]

/-- Settles O7: the step of a word that decodes is `exec` on the state in which the word has been taken. -/
theorem stepRunsTheDecodedCommand : Obligations.StepRunsTheDecodedCommand := by
  intro s w rest i hl hhost hd
  rw [step_command s w i hl (hostMove_of_host_eq_cons hhost) hd, takeWord_eq hhost]

/-- Settles O13: the two common checks on the lifecycle state only raise their fault. -/
theorem tornDownAndBusyFault : Obligations.TornDownAndBusyFault := by
  intro i s hl
  rw [exec_eq_checked]
  exact ⟨checked_of_tornDown s (work i) hl, checked_of_transmitting s (work i) hl⟩

/-! ### A halted machine -/

/-- A halted machine answers the same stop to every step and to every command (60_exceptions.md R113). -/
theorem stops_of_halted {stop : Out} (h : halted s = some stop) : step s = stop ∧ ∀ i, exec i s = stop := by
  refine ⟨by rw [step, h], fun i => ?_⟩
  rw [exec_eq_checked, checked, h]

/-- A configuration that is not admitted has the reason the model gives for it (60_exceptions.md R111, log 10). -/
theorem refusalOf_of_not_admitted {cfg : Config} (h : cfg.admitted = false) :
    refusalOf cfg = .configFlip ∧ cfg.flip = true ∨
      refusalOf cfg = .configPatternsEqual ∧ cfg.onePattern = cfg.zeroPattern := by
  cases hflip : cfg.flip with
  | true => exact .inl ⟨by simp [refusalOf, hflip], rfl⟩
  | false => exact .inr ⟨by simp [refusalOf, hflip], by simpa [Config.admitted, hflip] using h⟩

/-- Settles O11: a refused machine is halted, and its configuration is not admitted. -/
theorem refusedInstanceNeverSteps : Obligations.RefusedInstanceNeverSteps := by
  intro s hrefused hadmitted
  obtain ⟨hstep, hexec⟩ := stops_of_halted (halted_of_refused s hrefused)
  have hnot : s.cfg.admitted = false := by simpa [hrefused] using hadmitted
  exact ⟨refusalOf s.cfg, hstep, hexec, refusalOf_of_not_admitted hnot⟩

/-! ### No phase faults -/

/-- Phase D_PIXEL finds room for its pixel below the tail (43_controller.md R99, log 12). -/
theorem Sequenced.pixelFits (h : Sequenced s) (hp : s.phase = .dPixel) : pixelFits (regI s) s = true := by
  simp only [Sequenced, hp] at h
  obtain ⟨_, n, i, _, hi, hlt, hsize, _⟩ := h
  rw [regI_of_some hi, Machine.pixelFits, decide_eq_true_iff]
  omega

/-- Phase S_BEGIN finds its snapshot defined (42_transmit.md R85, log 19). -/
theorem Sequenced.exists_snapshot (h : Sequenced s) (hp : s.phase = .sBegin) :
    ∃ bytes, s.buf.readBytes 0 (regSendLen s) = some bytes := by
  simp only [Sequenced, hp] at h
  obtain ⟨len, hlen, _, hdef, _⟩ := h
  exact Machine.exists_snapshot hlen hdef

/-- Every micro-step answers a next state: D_PIXEL, which alone can stop, has room for its pixel. -/
theorem microStep_isNext (h : Sequenced s) : ∃ t, microStep s = .next t := by
  cases hp : s.phase with
  | dPixel =>
    rw [microStep_of_dPixel hp]
    obtain ⟨_, hnext⟩ | ⟨_, hfits, _⟩ | ⟨_, _, _, _, _, _, _, _, hnext⟩ := phaseDPixel_cases s
    · exact ⟨_, hnext⟩
    · exact absurd (h.pixelFits hp) (by simp [hfits])
    · exact ⟨_, hnext⟩
  | _ => exact ⟨_, by rw [microStep, hp]⟩

/-- No micro-step writes the fault: S_BEGIN, which alone can raise one, finds its snapshot defined
(60_exceptions.md R110). -/
theorem microStep_fault (hs : Sequenced s) (h : microStep s = .next t) : t.fault = s.fault := by
  refine microStep_cases (fun s t => Sequenced s → t.fault = s.fault) ?idle ?size ?alloc ?allocFailed ?mismatched
    ?pixel ?complete ?undef ?issued ?notBegun ?noWrite ?hold ?written ?closed s t h hs
  case undef =>
    intro s hp hnone hs
    obtain ⟨bytes, hsome⟩ := hs.exists_snapshot hp
    exact absurd hsome (by simp [hnone])
  case size => exact fun s _ _ => rfl
  case closed => exact fun s _ _ => rfl
  all_goals intros; simp

/-- Settles O57: the silent step is a micro-step, which answers a next state and does not write the fault. -/
theorem silentStepNeverFaults : Obligations.SilentStepNeverFaults := by
  intro s hl hs hm
  obtain ⟨t, ht⟩ := microStep_isNext (s := hostMoved s) hs
  exact ⟨t, (step_silent s hl hm).trans ht, (microStep_fault (s := hostMoved s) hs ht).trans hl.2⟩

/-! ### Faults are raised at acceptance -/

theorem raise_eq_of_fault {c' : FaultCode} (h : (raise c' s).fault = some c) : raise c' s = raise c s := by
  obtain rfl := Option.some.inj h
  rfl

/-- A command that leaves a fault has raised it and done nothing else (60_exceptions.md R110). -/
theorem exec_eq_raise (h : exec i s = .next t) (hfault : t.fault = some c) : t = raise c s := by
  obtain ⟨⟨_, hnone⟩, ⟨_, rfl⟩ | ⟨_, rfl⟩ | ⟨_, rfl⟩⟩ := exec_cases i s t h
  · exact raise_eq_of_fault hfault
  · exact raise_eq_of_fault hfault
  · obtain ⟨c', hraise⟩ | hkept := work_raises_or_keeps i s
    · rw [hraise] at hfault ⊢
      exact raise_eq_of_fault hfault
    · rw [hkept, hnone] at hfault
      cases hfault

/-- Settles O10: a word that leaves a fault has raised it, and a silent step raises none; a recorded fault halts the
machine. -/
theorem raisedFaultWritesNothingElse : Obligations.RaisedFaultWritesNothingElse := by
  refine ⟨fun s t c hs h hfault => ?_, fun s c hrefused hfault => stops_of_halted (halted_of_fault s c hrefused hfault)⟩
  obtain ⟨⟨_, hnone⟩, ⟨w, i, hm, _, h⟩ | ⟨w, _, hm, _, rfl⟩ | ⟨_, h⟩⟩ := step_cases s t h
  · obtain ⟨rest, hhost⟩ := hostMove_eq_some_iff.1 hm
    exact ⟨w, rest, hhost, (exec_eq_raise h hfault).trans (raise_takeWord_eq hhost)⟩
  · obtain ⟨rest, hhost⟩ := hostMove_eq_some_iff.1 hm
    exact ⟨w, rest, hhost, (raise_eq_of_fault hfault).trans (raise_takeWord_eq hhost)⟩
  · have hkept : t.fault = s.fault := microStep_fault (s := hostMoved s) hs h
    rw [hkept, hnone] at hfault
    cases hfault

/-! ### The checks of acceptance in their order -/

/-- A command only adds to the history. -/
theorem exec_extends (h : exec i s = .next t) : Extends s t := by
  obtain ⟨_, ⟨_, rfl⟩ | ⟨_, rfl⟩ | ⟨_, rfl⟩⟩ := exec_cases i s t h
  · exact raise_extends _ s
  · exact raise_extends _ s
  · exact work_extends i s

/-- A live machine takes the word of a command in one step, which is `exec`'s and leaves the entry of the lifecycle
table: with a fault it is the fault raised and nothing else, without one the command is accepted. -/
theorem step_word (hl : Live s) (hhost : s.env.host = some w :: rest) (hd : decode w = .command i) :
    ∃ t, exec i (takeWord w s) = .next t ∧ lifecycleEntry s.ctrlState i t ∧
      (∀ c, t.fault = some c → step s = .next { s with
        fault := some c
        events := s.events ++ [.cmd w, .fault c]
        env := { s.env with host := rest } }) ∧
      (t.fault = none → ∃ u, step s = .next u ∧ u.fault = none ∧ ∃ new, u.events = s.events ++ .cmd w :: new) := by
  obtain ⟨t, hexec, hentry⟩ := lifecycleTable i (takeWord w s) hl
  have hstep : step s = .next t := (step_command s w i hl (hostMove_of_host_eq_cons hhost) hd).trans hexec
  refine ⟨t, hexec, hentry, fun c hc => ?_, fun hnone => ?_⟩
  · rw [hstep, exec_eq_raise hexec hc, raise_takeWord_eq hhost]
  · obtain ⟨new, hnew⟩ := (exec_extends hexec).history
    exact ⟨t, hstep, hnone, new, by simp [← hnew]⟩

/-- SEND in READY faults on a length beyond the buffer, then on an Undef cell, and only then (42_transmit.md R84). -/
theorem send_fault_of_ready {len : Nat} (hl : Live s) (hready : s.ctrlState = .ready)
    (h : exec (.send len) s = .next t) :
    (s.bufSize < len → t.fault = some .bufferOverrun) ∧
      (len ≤ s.bufSize → ¬DefinedBelow s len → t.fault = some .undefinedRead) ∧
      (len ≤ s.bufSize → DefinedBelow s len → t.fault = none) := by
  obtain ⟨hoverrun, hundefined⟩ := sendOperandFaults s len hl hready
  refine ⟨fun hlt => ?_, fun hle hdef => ?_, fun hle hdef => ?_⟩
  · obtain rfl := Host.Outcome.next.inj (h.symm.trans (hoverrun hlt))
    rfl
  · have hcell : ∃ a, a < len ∧ s.buf.read a = none := by simpa [DefinedBelow] using hdef
    obtain rfl := Host.Outcome.next.inj (h.symm.trans (hundefined hle hcell))
    rfl
  · obtain rfl := Host.Outcome.next.inj (h.symm.trans (sendIsAccepted s len hl hready hle hdef))
    exact hl.2

/-- Settles O12: a halted machine stops; an illegal word faults; the lifecycle table says which commands fault, and in
READY the operand of SEND does. -/
theorem acceptanceChecksInOrder : Obligations.AcceptanceChecksInOrder := by
  intro s w rest hhost raised accepted
  cases hrefused : s.refused with
  | true => exact ⟨_, (stops_of_halted (halted_of_refused s hrefused)).1⟩
  | false =>
    cases hfault : s.fault with
    | some c => exact ⟨c, (stops_of_halted (halted_of_fault s c hrefused hfault)).1⟩
    | none =>
      have hl : Live s := ⟨hrefused, hfault⟩
      cases hd : decode w with
      | illegal why =>
        exact (step_illegal s w why hl (hostMove_of_host_eq_cons hhost) hd).trans
          (congrArg Host.Outcome.next (raise_takeWord_eq hhost))
      | command i =>
        obtain ⟨t, hexec, hentry, hraised, haccepted⟩ := step_word hl hhost hd
        cases hc : s.ctrlState with
        | tornDown => exact hraised _ (by rwa [hc] at hentry)
        | transmitting => exact hraised _ (by rwa [hc] at hentry)
        | uninit =>
          rw [hc] at hentry
          cases i with
          | drive => exact hraised _ hentry
          | send len => exact hraised _ hentry
          | _ => exact haccepted hentry.1
        | ready =>
          rw [hc] at hentry
          cases i with
          | init => exact hraised _ hentry
          | send len =>
            obtain ⟨hoverrun, hundefined, hnone⟩ := send_fault_of_ready (s := takeWord w s) hl hc hexec
            show if s.bufSize < len then _ else _
            split_ifs with hlt
            · exact hraised _ (hoverrun hlt)
            · exact ⟨fun hdef => haccepted (hnone (not_lt.1 hlt) hdef),
                fun hdef => hraised _ (hundefined (not_lt.1 hlt) hdef)⟩
          | _ => exact haccepted hentry.1

end Sys2Proof.Machine
end

section
/-! Proofs of the family of 70_reset_and_hazards.md: what reset leaves (R124, R22), and that it meets the invariants
every step keeps. -/

namespace Sys2Proof.Machine

/-! ### The reset column -/

/-- A configuration is refused for equal patterns and for FLIP, and for nothing else (00_scope.md R7). -/
theorem admitted_eq_false_iff (c : Config) :
    c.admitted = false ↔ c.onePattern = c.zeroPattern ∨ c.flip = true := by
  simp [Config.admitted, or_iff_not_imp_left]

theorem instantiate_refused_iff (c : Config) :
    (State.instantiate c).refused = true ↔ c.onePattern = c.zeroPattern ∨ c.flip = true := by
  rw [← admitted_eq_false_iff]
  exact iff_of_eq (Bool.not_eq_true' c.admitted)

/-- Settles O44: the fields stand as `State.instantiate` writes them, no cell of the empty memory has a value, and
`instantiate_refused_iff` says which configurations are refused. -/
theorem resetColumn : Obligations.ResetColumn :=
  fun c => ⟨rfl, rfl, rfl, Memory.read_nil, rfl, rfl, rfl, rfl, rfl, rfl, rfl, rfl, rfl, rfl, rfl, rfl, rfl,
    instantiate_refused_iff c⟩

/-! ### The invariants at reset -/

/-- In UNINIT neither side of the handle's and of the sequencer's equivalence holds, and no size exceeds a capacity. -/
theorem instantiate_lifecycle (c : Config) : Lifecycle (State.instantiate c) where
  handle := by simp [State.instantiate]
  sequence := by simp [State.instantiate]
  capacity := Nat.zero_le _
  admitted := rfl

/-- The block owns no cell, and every cell is Undef. -/
theorem instantiate_storage (c : Config) : Storage (State.instantiate c) where
  canonical := rfl
  outside a _ := Memory.read_nil a
  encoded a _ := .inl (Memory.read_nil a)

/-- Where the size is 0 the tail is empty, even if RESET_LEN is not. -/
theorem instantiate_tail (c : Config) : Tail (State.instantiate c) :=
  fun a _ hlt => absurd hlt (Nat.not_lt_zero a)

/-- IDLE reads no sequencer register. -/
theorem instantiate_sequenced (c : Config) : Sequenced (State.instantiate c) := trivial

/-- The empty history leaves the transaction closed, as IDLE has it. -/
theorem instantiate_disciplined (c : Config) : Disciplined (State.instantiate c) := rfl

/-- The empty history owns nothing and counts no reallocation. -/
theorem instantiate_owned (c : Config) : Owned (State.instantiate c) where
  ledger := rfl
  count := rfl

/-- There is no response yet. -/
theorem instantiate_responded (c : Config) : Responded (State.instantiate c) :=
  nofun

/-- No transaction has been opened yet. -/
theorem instantiate_fixedBusCfg (c : Config) : FixedBusCfg (State.instantiate c) :=
  fun _ _ hmem => absurd hmem List.not_mem_nil

/-- Settles O45: each invariant holds at reset, by its own lemma. -/
theorem resetMeetsTheInvariants : Obligations.ResetMeetsTheInvariants :=
  fun c => ⟨instantiate_lifecycle c, instantiate_storage c, instantiate_tail c, instantiate_sequenced c,
    instantiate_disciplined c, instantiate_owned c, instantiate_responded c, instantiate_fixedBusCfg c⟩

end Sys2Proof.Machine
end

section
/-! The sample words of 95_test_vectors.md section 2.1, read by their numbers (30_encoding.md R61, R63). -/

namespace Sys2Proof

/-- Settles O5: each word's number is the number of its command, so `decode_of_toNat` gives the decoding (V-DEC-1, 2, 3,
8, 9, 11 and 13). -/
theorem decodesSampleWords : Obligations.DecodesSampleWords :=
  ⟨decode_of_toNat 0x00000001 .init rfl, decode_of_toNat 0x00000002 .maxrate rfl,
    decode_of_toNat 0x00008103 (.encode 0x81) rfl, decode_of_toNat 0xFFFFFF04 (.ensure 16777215) rfl,
    decode_of_toNat 0x00000005 .drive rfl, decode_of_toNat 0x00002206 (.send 34) rfl,
    decode_of_toNat 0x00000007 .teardown rfl⟩

end Sys2Proof
end
